-- ==== Sys2Proof/Word.lean ====
section
/-! DEFINITION. The plainest types of the Ontavo 2416: a byte of a lane frame, and the fixed index ranges of the part
(00_scope.md, "Capacities and ranges" and "Numbering"). -/

namespace Sys2Proof

/-- One byte of a lane frame or of the configuration flash (R153, R159). -/
abbrev Byte := BitVec 8

/-- A lane port, 0 to 23. Port 0 is the uplink (R141). -/
abbrev Port := Fin 24

/-- A tab cache slot, 0 to 7 (R19). -/
abbrev SlotId := Fin 8

/-- A tax class, 0 to 3 (R43). -/
abbrev TaxClass := Fin 4

/-- A till group. The manual numbers groups 1 to 8 (R44): `g : Group` stands for group number `g.val + 1`. -/
abbrev Group := Fin 8

end Sys2Proof
end

