-- ==== Sys2Proof/Syntax.lean ====
section
/-! DEFINITION. The data that commands carry, and `Instr`: one constructor for each row of spec/opcode_table.json.
A row whose event is a frame carries the port the frame arrived on, its tag byte and its body bytes (R153); a row whose
event is the end of an operation of the memory port, the flash port or the split check carries what that outside unit
delivered, where the manual leaves it to that unit (DESIGN CHOICE, assumption 3). -/

namespace Sys2Proof

/-- The state of a tab line (R12). -/
inductive LineState where
  | active | void | waste
  deriving DecidableEq, Repr

/-- One line of a tab record (R12). -/
structure TabLine where
  number   : Nat
  item     : Nat
  quantity : Nat
  price    : Nat
  taxClass : TaxClass
  modifier : Byte
  state    : LineState
  ticket   : Option Nat
  deriving DecidableEq, Repr

/-- The nine stored amounts (R13), also the components of a share (R117, R119). -/
structure Amounts where
  net     : Vector Nat 4
  tax     : Vector Nat 4
  service : Nat
  deriving DecidableEq, Repr

/-- A tab's totals: the nine amounts and the total stored beside them (R13). -/
structure Totals where
  amounts : Amounts
  total   : Nat
  deriving DecidableEq, Repr

/-- The three ways of splitting a tab (R115). -/
inductive SplitMode where
  | even | byItem | byAmount
  deriving DecidableEq, Repr

/-- The state of a share (R131). -/
inductive ShareState where
  | unpaid | paid
  deriving DecidableEq, Repr

/-- One share of a plan (R13, R121). -/
structure Share where
  due        : Nat
  components : Option Amounts
  credited   : Nat
  state      : ShareState
  deriving DecidableEq, Repr

/-- A split plan (R13): its mode and its shares, share index 1 first. -/
structure SplitPlan where
  mode   : SplitMode
  shares : List Share
  deriving DecidableEq, Repr

/-- The three tender methods (R134). -/
inductive Method where
  | cash | card | voucher
  deriving DecidableEq, Repr

/-- One entry of the tender list (R14). -/
structure TenderEntry where
  share    : Nat
  method   : Method
  offered  : Nat
  credited : Nat
  change   : Option Nat
  forfeit  : Option Nat
  deriving DecidableEq, Repr

/-- A tab record (R11), less its check word, which only a record in tab memory carries (R14). -/
structure TabRecord where
  tab         : Nat
  group       : Group
  openingTill : Port
  lines       : List TabLine
  totals      : Totals
  plan        : Option SplitPlan
  tenders     : List TenderEntry
  deriving DecidableEq, Repr

/-- What tab memory holds at one tab number: a record, and the 16 bits of the check word beside it (R14, R31). -/
structure StoredRecord where
  record : TabRecord
  check  : BitVec 16
  deriving DecidableEq, Repr

/-- What the memory port delivers when a read completes (R31): the record as it was last written, or whatever the SDRAM
gives in its place, fields and check word. -/
inductive MemRead where
  | asWritten
  | delivers (cell : StoredRecord)
  deriving DecidableEq, Repr

/-- What the flash port reports while the config walk reads one node (R162): the bytes of the flash, or a fault. -/
inductive FlashRead where
  | contents
  | fault
  deriving DecidableEq, Repr

/-- The commands of the switch: one constructor for each row of spec/opcode_table.json, in its order. -/
inductive Instr where
  /-- PART_RESET (R161). `flashLeft` is what a save cut off by the reset leaves of the previous chain or in the place of the
  node it was writing, as with SAVE_FAULT (R173, R174); it is not looked at when no save runs. -/
  | partReset (flashLeft : List Byte)
  /-- CONFIG_WALK_NODE (R162). -/
  | configWalkNode (read : FlashRead)
  /-- RUN_DISCARDED (R143): the bytes that a delimiter ends. -/
  | runDiscarded (port : Port) (run : List Byte)
  /-- LINK_ERROR (R144): all the bytes of the frame, CRC included. -/
  | linkError (port : Port) (run : List Byte)
  /-- KIND_NOT_PERMITTED (R145): the kind byte, tag and body of a frame whose CRC matched. -/
  | kindNotPermitted (port : Port) (kind tag : Byte) (body : List Byte)
  | order (port : Port) (tag : Byte) (body : List Byte)
  | void (port : Port) (tag : Byte) (body : List Byte)
  | readTab (port : Port) (tag : Byte) (body : List Byte)
  | listTabs (port : Port) (tag : Byte) (body : List Byte)
  | split (port : Port) (tag : Byte) (body : List Byte)
  | cancelSplit (port : Port) (tag : Byte) (body : List Byte)
  | tender (port : Port) (tag : Byte) (body : List Byte)
  | resume (port : Port) (tag : Byte) (body : List Byte)
  | availQuery (port : Port) (tag : Byte) (body : List Byte)
  | hello (port : Port) (tag : Byte) (body : List Byte)
  | taken (port : Port) (tag : Byte) (body : List Byte)
  | start (port : Port) (tag : Byte) (body : List Byte)
  | bump (port : Port) (tag : Byte) (body : List Byte)
  | recallTicket (port : Port) (tag : Byte) (body : List Byte)
  | loadPorts (port : Port) (tag : Byte) (body : List Byte)
  | loadGroups (port : Port) (tag : Byte) (body : List Byte)
  | loadTaxes (port : Port) (tag : Byte) (body : List Byte)
  | loadItems (port : Port) (tag : Byte) (body : List Byte)
  | loadStations (port : Port) (tag : Byte) (body : List Byte)
  | loadTimers (port : Port) (tag : Byte) (body : List Byte)
  | setStock (port : Port) (tag : Byte) (body : List Byte)
  | adjustStock (port : Port) (tag : Byte) (body : List Byte)
  | readItems (port : Port) (tag : Byte) (body : List Byte)
  | collect (port : Port) (tag : Byte) (body : List Byte)
  | discardTab (port : Port) (tag : Byte) (body : List Byte)
  | cancelTicket (port : Port) (tag : Byte) (body : List Byte)
  | flushTabs (port : Port) (tag : Byte) (body : List Byte)
  | auditTabs (port : Port) (tag : Byte) (body : List Byte)
  | checkSplit (port : Port) (tag : Byte) (body : List Byte)
  | resetPort (port : Port) (tag : Byte) (body : List Byte)
  | saveConfig (port : Port) (tag : Byte) (body : List Byte)
  | noticeMask (port : Port) (tag : Byte) (body : List Byte)
  | status (port : Port) (tag : Byte) (body : List Byte)
  | describe (port : Port) (tag : Byte) (body : List Byte)
  /-- ACK_TIMER_EXPIRY (R88): the ack timer of this port's station expires. -/
  | ackTimerExpiry (port : Port)
  /-- HOLD_EXPIRY (R106): the deadline of this till's hold is reached. -/
  | holdExpiry (port : Port)
  /-- IMAGE_PERIOD_EXPIRY (R96). -/
  | imagePeriodExpiry
  /-- MEMORY_OP_START (R29). -/
  | memoryOpStart
  /-- FETCH_COMPLETE (R32): the running fetch completes, with what the memory port delivered. -/
  | fetchComplete (read : MemRead)
  /-- FETCH_ABANDONED (R33). -/
  | fetchAbandoned
  /-- WRITE_BACK_COMPLETE (R34). -/
  | writeBackComplete
  /-- WRITE_BACK_ABANDONED (R35). `left` is what tab memory then holds at the tab number (R30: it may have been left partly
  written); `none` leaves it as it was. -/
  | writeBackAbandoned (left : Option StoredRecord)
  /-- AUDIT_READ_COMPLETE (R40). -/
  | auditReadComplete (read : MemRead)
  /-- AUDIT_READ_ABANDONED (R40). -/
  | auditReadAbandoned
  /-- SPLIT_CHECK_END (R129): `passed` is the outcome the check reached (R127). -/
  | splitCheckEnd (passed : Bool)
  /-- SAVE_ERASE_COMPLETE (R174). -/
  | saveEraseComplete
  /-- SAVE_NODE_VERIFIED (R174): the node written is read back; `none`: as it was written, `some`: these bytes, as many of them as
  the node has, and erased ones where they are fewer. -/
  | saveNodeVerified (readBack : Option (List Byte))
  /-- SAVE_FAULT (R174): `left` is what the fault left in the place of the node being written, no more than that node's bytes; of an erase,
  the bytes of the previous chain that it still has. -/
  | saveFault (left : List Byte)
  /-- SAVE_TIMEOUT (R174); `left` as with SAVE_FAULT. -/
  | saveTimeout (left : List Byte)
  /-- FRAME_SENT (R149): the last byte of the frame this port is sending is on the lane. -/
  | frameSent (port : Port)
  /-- WAITER_EXECUTES (R25): the head of this slot's wait list executes. -/
  | waiterExecutes (slot : SlotId)
  /-- TICKET_SEND (R73). -/
  | ticketSend (port : Port)
  /-- URGENT_IMAGE (R98). -/
  | urgentImage (port : Port)
  /-- TRICKLE_IMAGE (R97). -/
  | trickleImage (port : Port)
  /-- AVAILABILITY_OFFER (R62). -/
  | availabilityOffer
  /-- AVAILABILITY_IMAGE_FRAME (R63). -/
  | availabilityImageFrame (port : Port)
  /-- NOTICE_SEND (R169). -/
  | noticeSend
  deriving DecidableEq, Repr

end Sys2Proof
end

