-- ==== Sys2Proof/Decode.lean ====
section
/-! DEFINITION. Decoding of the opcode table's words. Every row of spec/opcode_table.json has an empty list of fields and no
bits of its own: a command comes as an event (a frame, the end of an operation, an expiry), never as a coded word. -/

namespace Sys2Proof

/-- The command that a word of the table's bits spells: none, since no row of the table gives bits. -/
def decodeTableWord (_nbits _w : Nat) : Option Instr := none

end Sys2Proof
end

