-- ==== Sys2Proof/Config.lean ====
section
/-! DEFINITION. What an implementation fixes, and what the manual leaves open (constants with no body). -/

namespace Sys2Proof.Config

/-- The three bytes that a 3-byte money field of a reply carries when the amount does not fit in them (it is 16,777,216 or
more). R156 gives every money amount 3 bytes and R140 sums up to 32 offers of up to 9,999,999 into such a field: the manual
states no value for that case. FREE VALUE, assumption 1. -/
opaque wideMoney (amount : Nat) : BitVec 24

/-! The bytes of the seven parts of a tab record in tab memory, in the order in which R31 names them. The record's byte arrangement "is not
given" (chapter 1.4), so how a part stands in bytes is a FREE VALUE, assumption 4: a claim about a check word holds for every arrangement. -/

/-- The bytes of a record's tab number (R11, R31). FREE VALUE, assumption 4. -/
opaque tabBytes (tab : Nat) : List Byte

/-- The bytes of a record's group (R11, R31). FREE VALUE, assumption 4. -/
opaque groupBytes (group : Group) : List Byte

/-- The bytes of a record's opening till (R11, R31). FREE VALUE, assumption 4. -/
opaque openingTillBytes (till : Port) : List Byte

/-- The bytes of a record's lines (R12, R31). FREE VALUE, assumption 4. -/
opaque linesBytes (lines : List TabLine) : List Byte

/-- The bytes of a record's totals (R13, R31). FREE VALUE, assumption 4. -/
opaque totalsBytes (totals : Totals) : List Byte

/-- The bytes of a record's plan, or of its having none (R13, R31). FREE VALUE, assumption 4. -/
opaque planBytes (plan : Option SplitPlan) : List Byte

/-- The bytes of a record's tenders (R14, R31). FREE VALUE, assumption 4. -/
opaque tendersBytes (tenders : List TenderEntry) : List Byte

/-- Bytes in the configuration flash device. R160 says at least 128 kbyte. DESIGN CHOICE (assumption 2): exactly that. -/
def flashBytes : Nat := 131072

/-- What an erased byte of the flash reads as. R162 says only that it is not a node id. DESIGN CHOICE (assumption 2). -/
def erasedByte : Byte := 0xFF#8

/-- Milliseconds a memory operation may take (R30). -/
def memoryLimit : Nat := 25

/-- Milliseconds a flash erase or write may take (R174). -/
def flashLimit : Nat := 500

/-- The largest tab total (R56). -/
def totalLimit : Nat := 9999999

end Sys2Proof.Config
end

