-- ==== Sys2Proof/Machine/Frame.lean ====
section
/-! DEFINITION. Frames of a Concourse Lane: the CRC (R154), the values of kinds and statuses (R155), the encoding of numbers
(R156), and which kinds a role may send (R142). -/

namespace Sys2Proof.Machine

/-! ### The CRC-16 of R154 -/

/-- One bit of R154's computation: the bit is combined with the register's lowest bit, the register shifts toward that bit, and
8408 hexadecimal is combined in if the combined bit was 1. -/
def crcBit (r : BitVec 16) (b : Bool) : BitVec 16 :=
  if b != r.getLsbD 0 then (r >>> 1) ^^^ 0x8408#16 else r >>> 1

/-- One byte of R154's computation, least significant bit first. -/
def crcByte (r : BitVec 16) (b : Byte) : BitVec 16 :=
  [0, 1, 2, 3, 4, 5, 6, 7].foldl (fun acc i => crcBit acc (b.getLsbD i)) r

/-- The CRC-16 of a run of bytes (R154): the register starts at FFFF and is not inverted at the end. -/
def crc16 (bytes : List Byte) : BitVec 16 :=
  bytes.foldl crcByte 0xFFFF#16

/-- A CRC as it stands on the lane and in the flash: low byte first (R153, R159). -/
def crcBytes (bytes : List Byte) : List Byte :=
  [(crc16 bytes).setWidth 8, (crc16 bytes >>> 8).setWidth 8]

/-! ### Numbers (R156) -/

/-- A 1-byte number. -/
def num1 (n : Nat) : List Byte := [BitVec.ofNat 8 n]

/-- A 2-byte number, low byte first. -/
def num2 (n : Nat) : List Byte := [BitVec.ofNat 8 n, BitVec.ofNat 8 (n / 256)]

/-- A 3-byte number, low byte first. -/
def num3 (n : Nat) : List Byte := [BitVec.ofNat 8 n, BitVec.ofNat 8 (n / 256), BitVec.ofNat 8 (n / 65536)]

/-- A money amount in its 3 bytes (R156). An amount that does not fit leaves the three bytes open (a free value,
assumption 1). -/
def money (n : Nat) : List Byte :=
  if n < 16777216 then num3 n else num3 (Config.wideMoney n).toNat

/-- Reads a 2-byte number. -/
def read2 (lo hi : Byte) : Nat := lo.toNat + 256 * hi.toNat

/-- Reads a 3-byte number. -/
def read3 (b0 b1 b2 : Byte) : Nat := b0.toNat + 256 * b1.toNat + 65536 * b2.toNat

/-- Reads a signed 2-byte number in two's complement (R156). -/
def readSigned2 (lo hi : Byte) : Int :=
  if read2 lo hi < 32768 then (read2 lo hi : Int) else (read2 lo hi : Int) - 65536

/-- A signed 2-byte number in two's complement (R156). -/
def signed2 (i : Int) : List Byte := num2 (i % 65536).toNat

/-- A flag byte is 0 or 1; any other value is a PARSE (R156). -/
def readFlag (b : Byte) : Option Bool :=
  if b = 0 then some false else if b = 1 then some true else none

/-- A flag byte as it is sent (R156). -/
def flagByte (b : Bool) : List Byte := if b then [1] else [0]

/-- Cuts the first `n` pieces of `k` bytes off a list. -/
def pieces (k : Nat) : Nat → List Byte → List (List Byte)
  | 0, _ => []
  | n + 1, l => l.take k :: pieces k n (l.drop k)

/-! ### Kinds (R155) -/

/-- The frame kinds of R155. -/
inductive Kind where
  | order | void | readTab | listTabs | split | cancelSplit | tender | resume | availQuery
  | hello | taken | start | bump | recallTicket
  | ticket | withdraw | image | reply | availability | notice
  | loadPorts | loadGroups | loadTaxes | loadItems | loadStations | loadTimers | setStock | adjustStock
  | readItems | collect | discardTab | cancelTicket | flushTabs | auditTabs | checkSplit | resetPort
  | saveConfig | noticeMask | status | describe
  deriving DecidableEq, Repr

/-- The kind byte of a kind (R155). -/
def Kind.byte : Kind → Byte
  | .order => 0x10 | .void => 0x11 | .readTab => 0x12 | .listTabs => 0x13 | .split => 0x14 | .cancelSplit => 0x15
  | .tender => 0x16 | .resume => 0x17 | .availQuery => 0x18
  | .hello => 0x20 | .taken => 0x21 | .start => 0x22 | .bump => 0x23 | .recallTicket => 0x24
  | .ticket => 0x28 | .withdraw => 0x29 | .image => 0x2A | .reply => 0x30 | .availability => 0x31 | .notice => 0x32
  | .loadPorts => 0x40 | .loadGroups => 0x41 | .loadTaxes => 0x42 | .loadItems => 0x43 | .loadStations => 0x44
  | .loadTimers => 0x45 | .setStock => 0x46 | .adjustStock => 0x47 | .readItems => 0x48 | .collect => 0x49
  | .discardTab => 0x4A | .cancelTicket => 0x4B | .flushTabs => 0x4C | .auditTabs => 0x4D | .checkSplit => 0x4E
  | .resetPort => 0x4F | .saveConfig => 0x50 | .noticeMask => 0x51 | .status => 0x52 | .describe => 0x53

/-- Every assigned kind (R155). -/
def allKinds : List Kind :=
  [.order, .void, .readTab, .listTabs, .split, .cancelSplit, .tender, .resume, .availQuery,
   .hello, .taken, .start, .bump, .recallTicket, .ticket, .withdraw, .image, .reply, .availability, .notice,
   .loadPorts, .loadGroups, .loadTaxes, .loadItems, .loadStations, .loadTimers, .setStock, .adjustStock,
   .readItems, .collect, .discardTab, .cancelTicket, .flushTabs, .auditTabs, .checkSplit, .resetPort,
   .saveConfig, .noticeMask, .status, .describe]

/-- The kind that a kind byte names, or none for a value R155 does not assign. -/
def kindOfByte (b : Byte) : Option Kind := allKinds.find? (fun k => k.byte = b)

/-- What a lane port is (R141). A TILL port has a group and no other port has one. Port 0 alone is the uplink. -/
inductive PortRole where
  | unused | station | uplink
  | till (group : Group)
  deriving DecidableEq, Repr

/-- The kinds each role may send (R142). -/
def maySend : PortRole → Kind → Bool
  | .unused, _ => false
  | .till _, k => k ∈ [Kind.order, .void, .readTab, .listTabs, .split, .cancelSplit, .tender, .resume, .availQuery]
  | .station, k => k ∈ [Kind.hello, .taken, .start, .bump, .recallTicket]
  | .uplink, k => k ∈ [Kind.loadPorts, .loadGroups, .loadTaxes, .loadItems, .loadStations, .loadTimers, .setStock,
      .adjustStock, .readItems, .readTab, .listTabs, .collect, .discardTab, .cancelTicket, .flushTabs, .auditTabs,
      .checkSplit, .resetPort, .saveConfig, .noticeMask, .status, .describe]

/-! ### Statuses (R155) -/

/-- The status codes of R155. -/
inductive Status where
  | ok | accepted | partly | parse | notPermitted | busy | starting
  | noSuchTab | tabState | tabHeld | notHolder | tabsBusy | tabsFull | tabDamaged | tabMemoryFault | kitchenOpen
  | paidInPart | splitUnassigned | overTotal | checkFailed | amountMismatch | sharePaid
  | unknownTicket | ignored | gone | empty | saveFailed | kitchenFull | linkError
  deriving DecidableEq, Repr

/-- The status byte of a status (R155). -/
def Status.byte : Status → Byte
  | .ok => 0x00 | .accepted => 0x01 | .partly => 0x02 | .parse => 0x08 | .notPermitted => 0x09 | .busy => 0x0A
  | .starting => 0x0B | .noSuchTab => 0x10 | .tabState => 0x11 | .tabHeld => 0x12 | .notHolder => 0x13
  | .tabsBusy => 0x14 | .tabsFull => 0x15 | .tabDamaged => 0x16 | .tabMemoryFault => 0x17 | .kitchenOpen => 0x18
  | .paidInPart => 0x19 | .splitUnassigned => 0x20 | .overTotal => 0x21 | .checkFailed => 0x22
  | .amountMismatch => 0x23 | .sharePaid => 0x24 | .unknownTicket => 0x28 | .ignored => 0x29 | .gone => 0x2A
  | .empty => 0x2B | .saveFailed => 0x2C | .kitchenFull => 0x2D | .linkError => 0xFF

/-! ### Whole frames (R153, R143) -/

/-- The bytes of a frame: length, kind, tag, body and CRC (R153). -/
def frameBytes (kind tag : Byte) (body : List Byte) : List Byte :=
  let front := BitVec.ofNat 8 (body.length + 5) :: kind :: tag :: body
  front ++ crcBytes front

/-- R143's judgement of a run that a delimiter ends: is it a frame? Its length byte is 5 to 128 and is the run's byte count. -/
def runIsFrame : List Byte → Bool
  | [] => false
  | l :: rest => 5 ≤ l.toNat && l.toNat ≤ 128 && rest.length + 1 == l.toNat

/-- R144's check: the CRC of bytes 0 to L-3 is the one in bytes L-2 and L-1. -/
def crcMatches (run : List Byte) : Bool :=
  crcBytes (run.take (run.length - 2)) == run.drop (run.length - 2)

/-- The most body bytes a frame carries (R153). -/
def maxBody : Nat := 123

end Sys2Proof.Machine
end

