-- ==== Sys2Proof/Machine/State.lean ====
section
/-! DEFINITION. The state of the switch, block by block (00_scope.md, "Blocks and how they work together"), the reasons a step
can stop, and the state after reset. Plain data throughout. -/

namespace Sys2Proof.Machine

/-! ### Lane ports (chapter 9) -/

/-- Who a frame in a transmit queue is for (R148): the reply of the request in the port's request slot, an answer to a frame
that was never taken (R147), a copy of the availability list's frame (R62), or another frame of the switch's own. -/
inductive TxSource where
  | slotReply | answer | offer | own
  deriving DecidableEq, Repr

/-- A frame in a transmit queue: its kind, tag and body (R153); its length and CRC follow from them (`frameBytes`). -/
structure TxFrame where
  kind   : Kind
  tag    : Byte
  body   : List Byte
  source : TxSource
  deriving DecidableEq, Repr

/-- The request in a port's request slot (R146): its reply carries this kind and tag. -/
structure SlotRequest where
  kind : Kind
  tag  : Byte
  deriving DecidableEq, Repr

/-- What one lane port holds besides its entry in the port table. -/
structure LanePort where
  /-- The port discards what arrives up to the next delimiter (R143). -/
  discarding : Bool
  /-- The receive assembly (R143). -/
  assembly   : List Byte
  /-- The request slot (R146). -/
  request    : Option SlotRequest
  /-- The frame of the transmit queue whose sending has begun (R149). -/
  sending    : Option TxFrame
  /-- The other frames of the transmit queue, oldest first (R148, R149). -/
  queue      : List TxFrame
  /-- The stale flag (R61 to R63). -/
  stale      : Bool
  /-- The availability image in progress (R63): the last item code listed, 0 when its next frame starts from code 1. -/
  image      : Option Nat
  /-- The tag count (R150). -/
  tagCount   : Nat
  deriving DecidableEq, Repr

/-- A lane port after part reset and after a port reset (R143, R146, R148, R150, R151). -/
def LanePort.fresh : LanePort :=
  { discarding := true, assembly := [], request := none, sending := none, queue := [], stale := false, image := none,
    tagCount := 1 }

/-! ### Items and availability (chapter 3) -/

/-- The tracking part of an item entry (R45). -/
structure Tracking where
  level   : Nat
  stock   : Nat
  sold    : Nat
  lowMark : Nat
  deriving DecidableEq, Repr

/-- A defined entry of the item table (R45). An undefined code has no entry. -/
structure Item where
  price    : Nat
  taxClass : TaxClass
  station  : Option Port
  tracking : Option Tracking
  deriving DecidableEq, Repr

/-- The availability of an item (R48). -/
inductive Availability where
  | inStock | low | out
  deriving DecidableEq, Repr

/-- A change entry of the availability list (R61). -/
structure AvailEntry where
  item         : Nat
  availability : Availability
  stock        : Option Nat
  deriving DecidableEq, Repr

/-! ### The tab directory (chapter 1) -/

/-- The five tab states (R1). -/
inductive TabState where
  | free | opened | tendering | closed | damaged
  deriving DecidableEq, Repr

/-- An entry of the tab directory (R1). -/
structure DirEntry where
  state      : TabState
  group      : Option Group
  holder     : Option Port
  paidInPart : Bool
  live       : Nat
  slot       : Option SlotId
  deriving DecidableEq, Repr

/-- A directory entry after the format of R2. -/
def DirEntry.formatted : DirEntry :=
  { state := .free, group := none, holder := none, paidInPart := false, live := 0, slot := none }

/-! ### The tab cache and the memory controller (chapter 2) -/

/-- One line of an ORDER (R52). -/
structure OrderLine where
  item     : Nat
  quantity : Nat
  modifier : Byte
  deriving DecidableEq, Repr

/-- The BY-ITEM policy for unlisted lines (R115). -/
inductive SplitPolicy where
  | shareAll | refuse
  deriving DecidableEq, Repr

/-- A BY-ITEM assignment entry (R115). -/
structure Assignment where
  line     : Nat
  share    : Nat
  portions : Nat
  deriving DecidableEq, Repr

/-- What a SPLIT asks for (R115). -/
inductive SplitSpec where
  | even (n : Nat)
  | byItem (n : Nat) (policy : SplitPolicy) (entries : List Assignment)
  | byAmount (n : Nat) (amounts : List Nat)
  deriving DecidableEq, Repr

/-- A request that executes at a cache slot (chapter 2.2), with the fields its body gave. -/
inductive TabRequest where
  | order (tab : Nat) (rush : Bool) (lines : List OrderLine)
  | void (tab line : Nat)
  | readTab (tab page : Nat)
  | split (tab : Nat) (spec : SplitSpec)
  | cancelSplit (tab : Nat)
  | tender (tab share : Nat) (method : Method) (amount : Nat)
  | resume (tab : Nat)
  | collect (tab : Nat)
  | discardTab (tab : Nat)
  deriving DecidableEq, Repr

/-- An entry of a slot's wait list: the request and the port it came from. Its kind and tag stand in that port's request slot. -/
structure Waiter where
  port    : Port
  request : TabRequest
  deriving DecidableEq, Repr

/-- The states of a cache slot (R19). -/
inductive SlotState where
  | empty | fetching | ready | writing
  deriving DecidableEq, Repr

/-- A slot's incoming field (R19). -/
inductive Incoming where
  | none | tab (t : Nat) | new
  deriving DecidableEq, Repr

/-- A cache slot (R19). -/
structure CacheSlot where
  state    : SlotState
  tab      : Option Nat
  incoming : Incoming
  record   : Option TabRecord
  dirty    : Bool
  waits    : List Waiter
  deriving DecidableEq, Repr

/-- An EMPTY slot (R19, R28). -/
def CacheSlot.cleared : CacheSlot :=
  { state := .empty, tab := none, incoming := .none, record := none, dirty := false, waits := [] }

/-- An operation of the tab memory controller (R29). -/
inductive MemOp where
  | fetch (slot : SlotId) | writeBack (slot : SlotId) | auditRead (tab : Nat)
  deriving DecidableEq, Repr

/-- The operation the controller is carrying out, and the moment its time limit runs out (R30). -/
structure RunningOp where
  op       : MemOp
  deadline : Nat
  deriving DecidableEq, Repr

/-- A FLUSH in progress (R36, R37). -/
structure Flush where
  /-- FLUSH slots whose write-back has not ended. -/
  remaining  : List SlotId
  written    : Nat
  firstFault : Option Nat
  deriving DecidableEq, Repr

/-- A running audit (R38 to R41). -/
structure Audit where
  /-- The tab number under examination. -/
  position     : Nat
  verified     : Nat
  damaged      : Nat
  skipped      : Nat
  firstDamaged : Option Nat
  /-- The tab under examination has become FREE since its examination began (R40). -/
  freed        : Bool
  deriving DecidableEq, Repr

/-! ### Holds (chapter 6) -/

/-- An entry of the hold table that holds a tab (R101). -/
structure Hold where
  tab      : Nat
  deadline : Nat
  deriving DecidableEq, Repr

/-! ### The kitchen unit (chapters 4 and 5) -/

/-- A line of a ticket (R65). -/
structure TicketLine where
  item     : Nat
  quantity : Nat
  modifier : Byte
  line     : Nat
  deriving DecidableEq, Repr

/-- A ticket's transmission state (R65). -/
inductive TxState where
  | queued | sent | shown | stale
  deriving DecidableEq, Repr

/-- A kitchen ticket (R65). Its place is the list it stands in. -/
structure Ticket where
  number          : Nat
  original        : Nat
  tab             : Nat
  origin          : Port
  station         : Port
  rush            : Bool
  lines           : List TicketLine
  revision        : Byte
  state           : TxState
  started         : Bool
  everTransmitted : Bool
  deriving DecidableEq, Repr

/-- An entry of a recall list (R80). -/
structure RecallEntry where
  ticket : Ticket
  gone   : Bool
  deriving DecidableEq, Repr

/-- What the kitchen unit keeps for one port (R64, R86, R95). -/
structure Station where
  alternate : Option Port
  balance   : Bool
  window    : Nat
  /-- The queue in screen order. -/
  queue     : List Ticket
  /-- The numbers of the SENT tickets, oldest send first. -/
  sent      : List Nat
  /-- The moment the ack timer expires, while it runs. -/
  ackTimer  : Option Nat
  recalls   : List RecallEntry
  /-- The moment of the last accepted bump. -/
  lastBump  : Option Nat
  /-- READY (or DARK). -/
  ready     : Bool
  /-- The resync counter, 0 to 3. -/
  resync    : Fin 4
  deriving DecidableEq, Repr

/-- A station after part reset (R64, R86, R95). -/
def Station.fresh : Station :=
  { alternate := none, balance := false, window := 2, queue := [], sent := [], ackTimer := none, recalls := [],
    lastBump := none, ready := false, resync := 3 }

/-! ### The split engine (chapter 7) -/

/-- What started a split check (R129). -/
inductive CheckCause where
  | split | checkSplit
  deriving DecidableEq, Repr

/-- The split check state (R127); a running check keeps its cause. -/
inductive CheckState where
  | notRun | running (cause : CheckCause) | passed | failed
  deriving DecidableEq, Repr

/-! ### The office unit (chapter 10) -/

/-- The part's phase (R161). -/
inductive Phase where
  | starting | ready
  deriving DecidableEq, Repr

/-- The timer set (R167), each in its own unit. -/
structure Timers where
  hold  : Nat
  ack   : Nat
  image : Nat
  bump  : Nat
  deriving DecidableEq, Repr

/-- The timer set's defaults (R167). -/
def Timers.defaults : Timers := { hold := 120, ack := 30, image := 30, bump := 4 }

/-- The cause in a STATION notice (R92). -/
inductive StationCause where
  | ackTimeout | portReset | hello
  deriving DecidableEq, Repr

/-- The cause in a HOLD notice (R109). -/
inductive HoldCause where
  | expired | portReset | groupChange
  deriving DecidableEq, Repr

/-- The cause in a TAB notice (R32, R33, R35). -/
inductive TabCause where
  | damaged | fetchAbandoned | writeAbandoned
  deriving DecidableEq, Repr

/-- A notice (R158, chapter 10.3), with the fields its class carries. -/
inductive Notice where
  | station (port : Port) (ready : Bool) (cause : StationCause) (moved remaining : Nat)
  | stock (item : Nat) (availability : Availability) (stock : Option Nat)
  | hold (till : Port) (tab : Nat) (cause : HoldCause) (state : TabState) (paidInPart : Bool)
  | tab (tab : Nat) (cause : TabCause)
  | check (passed : Bool) (cause : CheckCause) (waiting : Nat)
  | auditDone (verified damaged skipped : Nat) (firstDamaged : Option Nat)
  | saveDone (ok : Bool)
  deriving DecidableEq, Repr

/-- What a running save is doing (R174): erasing, or writing the node of this index in the chain. -/
inductive SaveStage where
  | erasing | writing (node : Nat)
  deriving DecidableEq, Repr

/-- A running save, and the moment its present erase or write began (R174). -/
structure Save where
  stage : SaveStage
  began : Nat
  deriving DecidableEq, Repr

/-! ### The whole state -/

/-- The switch, its tab memory and its configuration flash, and the queue of commands that wait for it. -/
structure State where
  /-- The commands that wait, first in first out (the model's own field: DESIGN CHOICE, assumption 19). -/
  pending       : List Instr
  /-- Milliseconds since the model began: the model's own clock (DESIGN CHOICE, assumption 5). -/
  now           : Nat
  /-- The part's phase (R161). -/
  phase         : Phase
  /-- The byte of the flash at which the config walk reads its next node (R162). -/
  walkAt        : Nat
  /-- The start-up result (R164). -/
  startUp       : Byte
  /-- The notice queue (R168). -/
  notices       : List Notice
  /-- The notice class mask (R170). -/
  mask          : Byte
  /-- The dropped mark (R168). -/
  dropped       : Bool
  /-- The save state (R173). -/
  save          : Option Save
  /-- The configuration flash from its first byte; every byte beyond the list is erased (R159). -/
  flash         : List Byte
  /-- The timer set (R167). -/
  timers        : Timers
  /-- The moment the image period timer expires, while it runs (R96). -/
  imageTimer    : Option Nat
  /-- The port table (R141). -/
  portTable     : Vector PortRole 24
  /-- The lane ports (chapter 9). -/
  ports         : Vector LanePort 24
  /-- The group table: the service rate of each group (R44). -/
  serviceRates  : Vector Nat 8
  /-- The tax table (R43). -/
  taxRates      : Vector Nat 4
  /-- The item table: its defined entries by ascending code (R45). -/
  items         : List (Nat × Item)
  /-- The availability list (R61). -/
  availList     : List AvailEntry
  /-- The tab directory: its entries that differ from the formatted entry, by ascending tab number (R1). -/
  directory     : List (Nat × DirEntry)
  /-- The free list, head first (R4). -/
  freeList      : List Nat
  /-- The closed list, head first (R5). -/
  closedList    : List Nat
  /-- The tab cache (R19). -/
  slots         : Vector CacheSlot 8
  /-- The recency order, least recent first (R20). -/
  recency       : List SlotId
  /-- Tab memory: the records written to it, by ascending tab number (R31). -/
  tabMemory     : List (Nat × StoredRecord)
  /-- The slot operations that wait for the memory controller, oldest first (R29). -/
  memQueue      : List MemOp
  /-- The audit read that waits for the memory controller (R29). -/
  auditQueued   : Option Nat
  /-- The operation in progress (R29, R30). -/
  memRunning    : Option RunningOp
  /-- The FLUSH in progress (R36). -/
  flush         : Option Flush
  /-- The audit that is running (R38). -/
  audit         : Option Audit
  /-- The hold table (R101). -/
  holds         : Vector (Option Hold) 24
  /-- What the kitchen unit keeps for each port (R64). -/
  stations      : Vector Station 24
  /-- The overflow list, oldest first (R64). -/
  overflow      : List Ticket
  /-- The ticket number counter (R67). -/
  ticketCounter : Nat
  /-- The split check state (R127). -/
  check         : CheckState
  /-- The engine wait list: the ports whose SPLITs it holds, in the order they joined (R127). -/
  engineWait    : List Port
  deriving DecidableEq, Repr

/-- The tab numbers, ascending (R1). -/
def allTabs : List Nat := List.range' 1 2048

/-- The recency order after part reset (R20). -/
def initialRecency : List SlotId := [0, 1, 2, 3, 4, 5, 6, 7]

/-- The port table after part reset: port 0 the uplink and every other port UNUSED (R141). -/
def initialPortTable : Vector PortRole 24 := (Vector.replicate 24 PortRole.unused).set 0 .uplink

/-- The switch right after a part reset, with a flash and a tab memory that were never written, and no command waiting (R161 and
the "after part reset" values of every chapter; DESIGN CHOICE, assumption 6, for what the manual does not give). -/
def State.reset : State :=
  { pending := [], now := 0, phase := .starting, walkAt := 0, startUp := 0, notices := [], mask := 0x7F, dropped := false,
    save := none, flash := [], timers := Timers.defaults, imageTimer := none,
    portTable := initialPortTable, ports := Vector.replicate 24 LanePort.fresh,
    serviceRates := Vector.replicate 8 0, taxRates := Vector.replicate 4 0, items := [], availList := [],
    directory := [], freeList := allTabs, closedList := [],
    slots := Vector.replicate 8 CacheSlot.cleared, recency := initialRecency, tabMemory := [],
    memQueue := [], auditQueued := none, memRunning := none, flush := none, audit := none,
    holds := Vector.replicate 24 none, stations := Vector.replicate 24 Station.fresh, overflow := [], ticketCounter := 1,
    check := .notRun, engineWait := [] }

/-! ### How a step can stop -/

/-- The reasons a step can stop with a fault. There is none: the manual gives every command an effect in every state, so no
constructor is needed (DEDUCED, assumption 7). -/
inductive Fault where
  deriving DecidableEq, Repr

/-- The reasons a step can be refused. -/
inductive Refusal where
  /-- `exec` raises it for a row of the table that has no meaning in this model. No row is in that position. Safe: the model says
  nothing about such a command. -/
  | notModelled (mnemonic : String)
  deriving DecidableEq, Repr

end Sys2Proof.Machine
end

