-- ==== Sys2Proof/Machine/Ops.lean ====
section
/-! DEFINITION. The named operations over the state that every block uses: tables kept sparse, ports and their transmit queues
(R146 to R150), replies (R157), notices (R168), the directory (R1), slots (R19) and the hold table (R101). -/

namespace Sys2Proof.Machine

/-! ### Sparse tables: lists of (key, value) pairs with rising keys -/

/-- The value a sparse table lists at a key. -/
def tableFind {α : Type} (k : Nat) : List (Nat × α) → Option α
  | [] => none
  | (j, v) :: rest => if j = k then some v else tableFind k rest

/-- Lists a value at a key, in place of what was listed there, keeping the keys rising. -/
def tablePut {α : Type} (k : Nat) (v : α) : List (Nat × α) → List (Nat × α)
  | [] => [(k, v)]
  | (j, w) :: rest =>
    if k < j then (k, v) :: (j, w) :: rest else if j = k then (k, v) :: rest else (j, w) :: tablePut k v rest

/-- Lists nothing at a key. -/
def tableDrop {α : Type} (k : Nat) (table : List (Nat × α)) : List (Nat × α) :=
  table.filter (fun e => e.1 ≠ k)

/-- The keys of a sparse table rise strictly: its one canonical form. -/
def tableRising {α : Type} (table : List (Nat × α)) : Bool :=
  decide ((table.map Prod.fst).Pairwise (· < ·))

/-! ### Ports -/

/-- A lane port. -/
def State.port (s : State) (p : Port) : LanePort := s.ports[p.val]

/-- Replaces a lane port. -/
def State.setPort (s : State) (p : Port) (x : LanePort) : State := { s with ports := s.ports.set p.val x }

/-- A port's entry in the port table (R141). -/
def State.role (s : State) (p : Port) : PortRole := s.portTable[p.val]

/-- Replaces a port's entry in the port table (R141). -/
def State.setRole (s : State) (p : Port) (r : PortRole) : State := { s with portTable := s.portTable.set p.val r }

/-- The group of a port that is a TILL (R141). -/
def PortRole.group : PortRole → Option Group
  | .till g => some g
  | _ => none

/-- The port is a TILL port. -/
def PortRole.isTill : PortRole → Bool
  | .till _ => true
  | _ => false

/-- Every port, ascending. -/
def allPorts : List Port := List.finRange 24

/-- A port number 1 to 23 (R141). -/
def assignablePort (n : Nat) : Option Port :=
  if h : n < 24 then (if n = 0 then none else some ⟨n, h⟩) else none

/-! ### Transmit queues (R148 to R150) -/

/-- Every frame in a port's transmit queue, the one being sent among them. -/
def LanePort.frames (x : LanePort) : List TxFrame := x.sending.toList ++ x.queue

/-- There is room for a frame other than the slot's reply (R148): fewer than 7 such frames are in the queue. -/
def LanePort.hasRoom (x : LanePort) : Bool :=
  (x.frames.filter (fun f => f.source ≠ .slotReply)).length < 7

/-- The arbiter's pick (R149): the REPLY frame longest in the queue, else the frame longest in the queue. -/
def pickFrame (queue : List TxFrame) : Option TxFrame :=
  (queue.find? (fun f => f.kind = .reply)).or queue.head?

/-- The arbiter starts the frame it picks when the line is free (R149), at once (DESIGN CHOICE, assumption 17). -/
def LanePort.arbitrate (x : LanePort) : LanePort :=
  match x.sending, pickFrame x.queue with
  | none, some f => { x with sending := some f, queue := x.queue.erase f }
  | _, _ => x

/-- A frame enters the tail of a transmit queue, and goes onto the line at once if the line is free (R148, R149). -/
def LanePort.put (x : LanePort) (f : TxFrame) : LanePort :=
  { x with queue := x.queue ++ [f] }.arbitrate

/-- The next tag count: from 255 back to 1 (R150). -/
def nextTag (n : Nat) : Nat := if n ≥ 255 then 1 else n + 1

/-- A frame of the switch's own enters a port's transmit queue with the port's tag count, which is raised (R150). -/
def State.sendOwn (s : State) (p : Port) (kind : Kind) (body : List Byte) (source : TxSource) : State :=
  let x := s.port p
  s.setPort p { x.put { kind := kind, tag := BitVec.ofNat 8 x.tagCount, body := body, source := source } with
    tagCount := nextTag x.tagCount }

/-- An answer to a frame that was never taken (R147): a REPLY of status and kind alone, dropped if it finds no room. -/
def State.answer (s : State) (p : Port) (status : Status) (kind tag : Byte) : State :=
  if (s.port p).hasRoom then
    s.setPort p ((s.port p).put { kind := .reply, tag := tag, body := [status.byte, kind], source := .answer })
  else s

/-- The reply of the request in a port's slot (R146, R155): status, request kind, then the fields given. A slot that a port
reset has freed gets none. -/
def State.reply (s : State) (p : Port) (status : Status) (fields : List Byte) : State :=
  match (s.port p).request with
  | none => s
  | some r =>
    s.setPort p ((s.port p).put
      { kind := .reply, tag := r.tag, body := status.byte :: r.kind.byte :: fields, source := .slotReply })

/-- The refusal detail of R157. -/
structure Detail where
  tab    : Nat := 0
  index  : Nat := 0
  figure : Nat := 0
  second : Nat := 0
  deriving DecidableEq, Repr

/-- The refusal detail as bytes: tab [2], index [1], figure [3], second figure [1] (R157). -/
def Detail.bytes (d : Detail) : List Byte := num2 d.tab ++ num1 d.index ++ money d.figure ++ num1 d.second

/-- A reply of a status other than OK, PARTIAL and ACCEPTED, with its refusal detail (R157). -/
def State.refuse (s : State) (p : Port) (status : Status) (d : Detail) : State := s.reply p status d.bytes

/-! ### Notices (R168) -/

/-- The class of a notice (R156). -/
def Notice.class : Notice → Nat
  | .station .. => 1
  | .stock .. => 2
  | .hold .. => 3
  | .tab .. => 4
  | .check .. => 5
  | .auditDone .. => 6
  | .saveDone .. => 7

/-- A notice is raised (R168): ignored if its class is disabled, appended if the queue holds fewer than 16, and otherwise
discarded with the dropped mark set. -/
def State.raise (s : State) (n : Notice) : State :=
  if s.mask.getLsbD (n.class - 1) then
    if s.notices.length < 16 then { s with notices := s.notices ++ [n] } else { s with dropped := true }
  else s

/-! ### The model's clock (assumption 5) -/

/-- Time reaches a moment. -/
def State.reach (s : State) (moment : Nat) : State := { s with now := max s.now moment }

/-- A time limit that ends at this moment has not run out (R30, R174): at the moment itself the end of the work and the expiry may come
in either order. -/
def State.inTime (s : State) (limit : Nat) : Bool := s.now ≤ limit

/-! ### The tab directory (R1) and the hold table (R101) -/

/-- A tab number, 1 to 2,048 (R1). -/
def isTab (t : Nat) : Bool := 1 ≤ t && t ≤ 2048

/-- A tab's directory entry (R1). -/
def State.dir (s : State) (t : Nat) : DirEntry := (tableFind t s.directory).getD DirEntry.formatted

/-- Replaces a tab's directory entry, keeping the directory in its one form. -/
def State.setDir (s : State) (t : Nat) (e : DirEntry) : State :=
  { s with directory := if e = DirEntry.formatted then tableDrop t s.directory else tablePut t e s.directory }

/-- The hold table entry of a port (R101). -/
def State.hold (s : State) (p : Port) : Option Hold := s.holds[p.val]

/-- Replaces the hold table entry of a port. -/
def State.setHold (s : State) (p : Port) (h : Option Hold) : State := { s with holds := s.holds.set p.val h }

/-- The deadline that a hold set or restarted now gets (R103, R104, R112). -/
def State.holdDeadline (s : State) : Nat := s.now + 1000 * s.timers.hold

/-- The till takes the tab in the hold table, and the tab's directory holder becomes the till (R101, R103, R108). -/
def State.takeHold (s : State) (p : Port) (t : Nat) : State :=
  (s.setHold p (some { tab := t, deadline := s.holdDeadline })).setDir t { s.dir t with holder := some p }

/-- The till's deadline is restarted (R104). -/
def State.restartHold (s : State) (p : Port) : State :=
  match s.hold p with
  | none => s
  | some h => s.setHold p (some { h with deadline := s.holdDeadline })

/-- The holder of a tab, if it has one, loses the hold: its hold table entry is cleared and the tab's directory holder becomes
none, at the same event (R101, R105). -/
def State.endHold (s : State) (t : Nat) : State :=
  match (s.dir t).holder with
  | none => s
  | some p => (s.setHold p none).setDir t { s.dir t with holder := none }

/-! ### Slots (R19, R20) -/

/-- A cache slot. -/
def State.slot (s : State) (i : SlotId) : CacheSlot := s.slots[i.val]

/-- Replaces a cache slot. -/
def State.setSlot (s : State) (i : SlotId) (x : CacheSlot) : State := { s with slots := s.slots.set i.val x }

/-- Every slot, ascending. -/
def allSlots : List SlotId := List.finRange 8

/-- The slot moves to the most recent end of the recency order (R20, R26). -/
def State.touch (s : State) (i : SlotId) : State :=
  { s with recency := s.recency.filter (fun j => j ≠ i) ++ [i] }

/-- The slot's working record becomes this one, and the slot is marked dirty (R26). -/
def State.writeRecord (s : State) (i : SlotId) (r : TabRecord) : State :=
  s.setSlot i { s.slot i with record := some r, dirty := true }

/-! ### Stations and items -/

/-- What the kitchen unit keeps for a port (R64). -/
def State.station (s : State) (p : Port) : Station := s.stations[p.val]

/-- Replaces what the kitchen unit keeps for a port. -/
def State.setStation (s : State) (p : Port) (x : Station) : State := { s with stations := s.stations.set p.val x }

/-- The defined item at a code (R45). -/
def State.item (s : State) (c : Nat) : Option Item := tableFind c s.items

/-- Replaces the item entry at a code; none makes it undefined (R45, R46). -/
def State.setItem (s : State) (c : Nat) (x : Option Item) : State :=
  { s with items := match x with
      | none => tableDrop c s.items
      | some i => tablePut c i s.items }

/-- The service rate of a group (R44). -/
def State.serviceRate (s : State) (g : Group) : Nat := s.serviceRates[g.val]

end Sys2Proof.Machine
end

