-- ==== Sys2Proof/Machine/Arithmetic.lean ====
section
/-! DEFINITION. The arithmetic of totals and splits (chapter 7): R113 to R121. -/

namespace Sys2Proof.Machine

/-- A value for each tax class. -/
def perClass {α : Type} (f : TaxClass → α) : Vector α 4 := #v[f 0, f 1, f 2, f 3]

/-! ### Totals (R113) -/

/-- An amount that counts toward a tab's totals, under its tax class. -/
structure Charge where
  taxClass : TaxClass
  amount   : Nat
  deriving DecidableEq, Repr

/-- What a line charges: its quantity times its copied price, under its copied class, if it is ACTIVE (R12, R113). -/
def lineCharge (l : TabLine) : Option Charge :=
  if l.state = .active then some { taxClass := l.taxClass, amount := l.quantity * l.price } else none

/-- The net of a class: the sum of the amounts of that class (R113). -/
def classNet (c : TaxClass) (charges : List Charge) : Nat :=
  ((charges.filter (fun x => x.taxClass = c)).map (fun x => x.amount)).sum

/-- Rate in basis points times amount, rounded to the nearest cent with half a cent going up (R113). -/
def atRate (amount rate : Nat) : Nat := (amount * rate + 5000) / 10000

/-- The sum of the four class nets (R113). -/
def amountsNet (a : Amounts) : Nat := a.net[0] + a.net[1] + a.net[2] + a.net[3]

/-- The sum of the four class taxes (R113). -/
def amountsTax (a : Amounts) : Nat := a.tax[0] + a.tax[1] + a.tax[2] + a.tax[3]

/-- Net, taxes and service together. -/
def amountsSum (a : Amounts) : Nat := amountsNet a + amountsTax a + a.service

/-- The totals of a list of charges at given rates (R113). -/
def totalsOf (taxRates : Vector Nat 4) (serviceRate : Nat) (charges : List Charge) : Totals :=
  let net := perClass (fun c => classNet c charges)
  let tax := perClass (fun c => atRate (classNet c charges) taxRates[c.val])
  let netSum := net[0] + net[1] + net[2] + net[3]
  let amounts : Amounts := { net := net, tax := tax, service := atRate netSum serviceRate }
  { amounts := amounts, total := amountsSum amounts }

/-- The charges of a list of tab lines (R113). -/
def chargesOf (lines : List TabLine) : List Charge := lines.filterMap lineCharge

/-- The totals of a tab's lines at the rates in effect, for a tab of this group (R13, R113). -/
def State.lineTotals (s : State) (g : Group) (lines : List TabLine) : Totals :=
  totalsOf s.taxRates (s.serviceRate g) (chargesOf lines)

/-- Totals of 0 throughout (R11). -/
def zeroTotals : Totals :=
  { amounts := { net := Vector.replicate 4 0, tax := Vector.replicate 4 0, service := 0 }, total := 0 }

/-! ### The apportion procedure (R114) -/

/-- One share's row while an amount is apportioned: its part, its remainder, and whether it has received a leftover cent. -/
structure Portion where
  part      : Nat
  remainder : Nat
  extra     : Bool
  deriving DecidableEq, Repr

/-- The part a row ends with. -/
def Portion.value (x : Portion) : Nat := if x.extra then x.part + 1 else x.part

/-- The largest remainder among the rows that have not yet received a leftover cent (R114). -/
def largestRemainder : List Portion → Nat
  | [] => 0
  | x :: rest => if x.extra then largestRemainder rest else max x.remainder (largestRemainder rest)

/-- The first row with this remainder that has not yet received a leftover cent receives one (R114). -/
def giveCent (r : Nat) : List Portion → List Portion
  | [] => []
  | x :: rest => if !x.extra && x.remainder == r then { x with extra := true } :: rest else x :: giveCent r rest

/-- The leftover is handed out one cent at a time (R114). -/
def handOut : Nat → List Portion → List Portion
  | 0, rows => rows
  | k + 1, rows => handOut k (giveCent (largestRemainder rows) rows)

/-- Divides an amount by weights into parts that add up to it (R114). -/
def apportion (amount : Nat) (weights : List Nat) : List Nat :=
  let total := weights.sum
  if amount = 0 ∨ total = 0 then weights.map (fun _ => 0)
  else
    let rows := weights.map (fun w =>
      ({ part := amount * w / total, remainder := amount * w % total, extra := false } : Portion))
    (handOut (amount - (rows.map (fun x => x.part)).sum) rows).map Portion.value

/-! ### The three modes (R116 to R121) -/

/-- A share as the split engine creates it: PAID when its due is 0 and OPEN otherwise (R121). -/
def newShare (due : Nat) (components : Option Amounts) : Share :=
  { due := due, components := components, credited := 0, state := if due = 0 then .paid else .unpaid }

/-- A weight of 1 for every share. -/
def evenWeights (n : Nat) : List Nat := List.replicate n 1

/-- The components of share `j` (counted from 0) of an EVEN split (R117). -/
def evenComponents (a : Amounts) (n j : Nat) : Amounts :=
  { net := perClass (fun c => (apportion a.net[c.val] (evenWeights n)).getD j 0),
    tax := perClass (fun c => (apportion a.tax[c.val] (evenWeights n)).getD j 0),
    service := (apportion a.service (evenWeights n)).getD j 0 }

/-- The shares of an EVEN split (R116, R117). -/
def evenShares (t : Totals) (n : Nat) : List Share :=
  (List.range n).map (fun j =>
    newShare ((apportion t.total (evenWeights n)).getD j 0) (some (evenComponents t.amounts n j)))

/-- Some entry names the line. -/
def isListed (entries : List Assignment) (l : TabLine) : Bool := entries.any (fun e => e.line = l.number)

/-- The weight of each share for a line (R118): the portions of its entries, or 1 for every share when no entry names it. -/
def lineWeights (n : Nat) (entries : List Assignment) (l : TabLine) : List Nat :=
  if isListed entries l then
    (List.range n).map (fun j =>
      ((entries.filter (fun e => e.line = l.number && e.share = j + 1)).map (fun e => e.portions)).sum)
  else evenWeights n

/-- The class net of share `j` (counted from 0): the parts of the ACTIVE lines of that class (R119, stage 1). -/
def itemShareNet (n : Nat) (entries : List Assignment) (lines : List TabLine) (c : TaxClass) (j : Nat) : Nat :=
  ((lines.filter (fun l => l.state = .active && l.taxClass = c)).map (fun l =>
    (apportion (l.quantity * l.price) (lineWeights n entries l)).getD j 0)).sum

/-- The net of share `j`: the sum of its class nets (R119, stage 1). -/
def itemShareTotalNet (n : Nat) (entries : List Assignment) (lines : List TabLine) (j : Nat) : Nat :=
  itemShareNet n entries lines 0 j + itemShareNet n entries lines 1 j + itemShareNet n entries lines 2 j
    + itemShareNet n entries lines 3 j

/-- The components of share `j` of a BY-ITEM split (R119): stage 1 gives the nets, stage 2 the taxes, stage 3 the service. -/
def itemComponents (a : Amounts) (n : Nat) (entries : List Assignment) (lines : List TabLine) (j : Nat) : Amounts :=
  { net := perClass (fun c => itemShareNet n entries lines c j),
    tax := perClass (fun c =>
      (apportion a.tax[c.val] ((List.range n).map (itemShareNet n entries lines c))).getD j 0),
    service := (apportion a.service ((List.range n).map (itemShareTotalNet n entries lines))).getD j 0 }

/-- The shares of a BY-ITEM split: each due is the sum of its components (R119). -/
def itemShares (t : Totals) (n : Nat) (entries : List Assignment) (lines : List TabLine) : List Share :=
  (List.range n).map (fun j =>
    newShare (amountsSum (itemComponents t.amounts n entries lines j)) (some (itemComponents t.amounts n entries lines j)))

/-- The shares of a BY-AMOUNT split: the amounts given, and the rest (R120). -/
def amountShares (t : Totals) (amounts : List Nat) : List Share :=
  (amounts ++ [t.total - amounts.sum]).map (fun d => newShare d none)

/-- What the split engine makes of a SPLIT's mode: a plan, or a refusal with the figures its reply carries (R118, R120). -/
inductive PlanResult where
  | plan (p : SplitPlan)
  | refused (status : Status) (index figure : Nat)
  deriving DecidableEq, Repr

/-- An entry's line is on the tab and ACTIVE (R118). -/
def namesActiveLine (lines : List TabLine) (e : Assignment) : Bool :=
  lines.any (fun l => l.number = e.line && l.state = .active)

/-- Steps 4 and 5 of R122: the mode's own checks against the record, and the plan. -/
def makePlan (spec : SplitSpec) (r : TabRecord) : PlanResult :=
  match spec with
  | .even n => .plan { mode := .even, shares := evenShares r.totals n }
  | .byItem n policy entries =>
    match entries.find? (fun e => !namesActiveLine r.lines e) with
    | some e => .refused .parse e.line 0
    | none =>
      match policy, r.lines.find? (fun l => l.state = .active && !isListed entries l) with
      | .refuse, some l => .refused .splitUnassigned l.number 0
      | _, _ => .plan { mode := .byItem, shares := itemShares r.totals n entries r.lines }
  | .byAmount _ amounts =>
    if r.totals.total < amounts.sum then .refused .overTotal 0 r.totals.total
    else .plan { mode := .byAmount, shares := amountShares r.totals amounts }

/-- Every share of the plan is PAID. -/
def planAllPaid (p : SplitPlan) : Bool := p.shares.all (fun x => x.state = .paid)

/-- What a share still owes (R131). -/
def shareOutstanding (x : Share) : Nat := x.due - x.credited

/-- The tab's outstanding amount (R18, R131). -/
def planOutstanding (p : SplitPlan) : Nat := (p.shares.map shareOutstanding).sum

end Sys2Proof.Machine
end

