-- ==== Sys2Proof/Machine/Flags.lean ====
section
/-! DEFINITION. The values of the named states (R156), and the flag bytes of frame bodies (R156 to R158). -/

namespace Sys2Proof.Machine

/-- Role and group bytes of a port entry (R156): group 0 unless TILL. Port 0 has no entry in any load. -/
def roleBytes : PortRole → List Byte
  | .unused => [0, 0]
  | .till g => [1, BitVec.ofNat 8 (g.val + 1)]
  | .station => [2, 0]
  | .uplink => [0, 0]

/-- A group, sent as its number 1 to 8 and as 0 when absent (R156). -/
def groupNumber : Option Group → Nat
  | none => 0
  | some g => g.val + 1

/-- Tab state (R156). -/
def tabStateCode : TabState → Nat
  | .free => 0 | .opened => 1 | .tendering => 2 | .closed => 3 | .damaged => 4

/-- Line state (R156). -/
def lineStateCode : LineState → Nat
  | .active => 0 | .void => 1 | .waste => 2

/-- Ticket state (R156). -/
def txStateCode : TxState → Nat
  | .queued => 0 | .sent => 1 | .shown => 2 | .stale => 3

/-- Availability (R156). -/
def availabilityCode : Availability → Nat
  | .inStock => 0 | .low => 1 | .out => 2

/-- Split mode (R156). -/
def modeCode : SplitMode → Nat
  | .even => 1 | .byItem => 2 | .byAmount => 3

/-- Tender method (R156). -/
def methodCode : Method → Nat
  | .cash => 1 | .card => 2 | .voucher => 3

/-- Share state (R156). -/
def shareStateCode : ShareState → Nat
  | .unpaid => 0 | .paid => 1

/-- Check state (R156). -/
def checkStateCode : CheckState → Nat
  | .notRun => 0 | .running _ => 1 | .passed => 2 | .failed => 3

/-- The state of a cache slot in STATUS (R171). -/
def slotStateCode : SlotState → Nat
  | .empty => 0 | .fetching => 1 | .ready => 2 | .writing => 3

/-- The number a flag counts for at a bit. -/
def bit (b : Bool) (weight : Nat) : Nat := if b then weight else 0

/-- A port, tab or ticket that may be absent is sent as 0 when absent (R156). -/
def orZero (x : Option Nat) : Nat := x.getD 0

/-- A port that may be absent, as a number (R156). -/
def portNumber (x : Option Port) : Nat := (x.map (fun p => p.val)).getD 0

/-- The flags of a line in READ TAB (R157): bits 0-1 tax class, bits 2-3 line state. -/
def lineFlags (l : TabLine) : Nat := l.taxClass.val + 4 * lineStateCode l.state

/-- The flags of a tab in LIST TABS (R157): bit 0 paid-in-part, bit 1 cached. -/
def listFlags (e : DirEntry) : Nat := bit e.paidInPart 1 + bit e.slot.isSome 2

/-- The flags of an item entry in LOAD ITEMS (R156): bit 0 defined, bit 1 station present, bit 2 tracking present. -/
def itemFlags (i : Item) : Nat := 1 + bit i.station.isSome 2 + bit i.tracking.isSome 4

/-- The flags of an item in READ ITEMS (R157): those of LOAD ITEMS, then bits 3-4 availability and bits 5-6 tax class. -/
def readItemFlags (i : Item) (a : Availability) : Nat := itemFlags i + 8 * availabilityCode a + 32 * i.taxClass.val

/-- The flags of a station entry (R156): bit 0 alternate present, bit 1 balance. -/
def stationFlags (x : Station) : Nat := bit x.alternate.isSome 1 + bit x.balance 2

/-- The flags of a TICKET frame (R158): bit 0 rush, bit 1 started. -/
def ticketFlags (t : Ticket) : Nat := bit t.rush 1 + bit t.started 2

/-- The flags of a ticket in an IMAGE (R158): bits 0-1 ticket state, bit 2 started, bit 3 rush. -/
def imageFlags (t : Ticket) : Nat := txStateCode t.state + bit t.started 4 + bit t.rush 8

/-- The flags of an AVAILABILITY frame (R158): bit 0 image frame, bit 1 last frame of the image, bit 2 first frame of it. -/
def availabilityFlags (image last first : Bool) : Nat := bit image 1 + bit last 2 + bit first 4

/-- Availability and stock in one 2-byte number (R158): bits 0-13 the stock, 3FFF when absent, and bits 14-15 the availability. -/
def availabilityWord (a : Availability) (stock : Option Nat) : Nat := stock.getD 0x3FFF + 16384 * availabilityCode a

/-- The bits of the start-up result (R164). -/
inductive LoadBit where
  | ports | groups | taxes | stations | timers | items
  deriving DecidableEq, Repr

/-- The start-up result with a table's bit set (R164). -/
def setLoadBit (result : Byte) : LoadBit → Byte
  | .ports => result ||| 0x01
  | .groups => result ||| 0x02
  | .taxes => result ||| 0x04
  | .stations => result ||| 0x08
  | .timers => result ||| 0x10
  | .items => result ||| 0x20

end Sys2Proof.Machine
end

