-- ==== Sys2Proof/Machine/Operands.lean ====
section
/-! DEFINITION. The bodies of request frames (R156), read whole: `none` where the owning chapter answers PARSE. -/

namespace Sys2Proof.Machine

/-- An empty body (R156). -/
def emptyBody (body : List Byte) : Option Unit := if body = [] then some () else none

/-- The body of CANCEL SPLIT, RESUME, DISCARD TAB, START, BUMP and READ ITEMS: one 2-byte number (R156). -/
def readNumber : List Byte → Option Nat
  | [a, b] => some (read2 a b)
  | _ => none

/-- The tab number that a request of R157's table names, as far as its body holds one: its first two bytes
(DESIGN CHOICE, assumption 8). -/
def namedTab : List Byte → Nat
  | a :: b :: _ => read2 a b
  | _ => 0

/-- An item code, 1 to 1,023 (R45). -/
def isItemCode (c : Nat) : Bool := 1 ≤ c && c ≤ 1023

/-! ### Till requests -/

/-- One ORDER line: item [2], quantity [1], modifier [1] (R52, R156). -/
def readOrderLine : List Byte → Option OrderLine
  | [i0, i1, q, m] =>
    if isItemCode (read2 i0 i1) && 1 ≤ q.toNat && q.toNat ≤ 99 then
      some { item := read2 i0 i1, quantity := q.toNat, modifier := m }
    else none
  | _ => none

/-- An ORDER: tab [2], rush [1], line count [1], the lines (R52, R156). -/
def readOrder : List Byte → Option (Nat × Bool × List OrderLine)
  | t0 :: t1 :: r :: n :: rest =>
    if 1 ≤ n.toNat && n.toNat ≤ 12 && rest.length == 4 * n.toNat then
      match readFlag r, (pieces 4 n.toNat rest).mapM readOrderLine with
      | some rush, some lines => some (read2 t0 t1, rush, lines)
      | _, _ => none
    else none
  | _ => none

/-- A VOID: tab [2], line [1], 1 to 255 (R58). -/
def readVoid : List Byte → Option (Nat × Nat)
  | [t0, t1, l] => if l = 0 then none else some (read2 t0 t1, l.toNat)
  | _ => none

/-- A READ TAB: tab [2], page [1], 0 to 6 (R17). -/
def readReadTab : List Byte → Option (Nat × Nat)
  | [t0, t1, p] => if p.toNat ≤ 6 then some (read2 t0 t1, p.toNat) else none
  | _ => none

/-- The selectors of LIST TABS (R16, R156): none is ANY. -/
def readSelector (b : Byte) : Option (Option TabState) :=
  match b.toNat with
  | 0 => some none
  | 1 => some (some .opened)
  | 2 => some (some .tendering)
  | 3 => some (some .closed)
  | 4 => some (some .damaged)
  | _ => none

/-- A LIST TABS: starting tab [2], selector [1], group [1], 0 to 8 (R16). -/
def readListTabs : List Byte → Option (Nat × Option TabState × Nat)
  | [t0, t1, sel, g] =>
    match readSelector sel with
    | none => none
    | some selector =>
      if isTab (read2 t0 t1) && g.toNat ≤ 8 then some (read2 t0 t1, selector, g.toNat) else none
  | _ => none

/-- One BY-ITEM entry: line [1], share [1], portions [1] (R115). -/
def readAssignment (n : Nat) : List Byte → Option Assignment
  | [l, sh, p] =>
    if l ≠ 0 ∧ 1 ≤ sh.toNat ∧ sh.toNat ≤ n ∧ 1 ≤ p.toNat ∧ p.toNat ≤ 15 then
      some { line := l.toNat, share := sh.toNat, portions := p.toNat }
    else none
  | _ => none

/-- One BY-AMOUNT amount: 3 bytes, 0 to 9,999,999 (R115). -/
def readAmount : List Byte → Option Nat
  | [a, b, c] => if read3 a b c ≤ Config.totalLimit then some (read3 a b c) else none
  | _ => none

/-- The part of a SPLIT body after its share count (R115). -/
def readSplitFields (mode : Byte) (n : Nat) (rest : List Byte) : Option SplitSpec :=
  match mode.toNat with
  | 1 => if 1 ≤ n ∧ n ≤ 16 ∧ rest = [] then some (.even n) else none
  | 2 =>
    match rest with
    | pol :: e :: entries =>
      if 1 ≤ n ∧ n ≤ 16 ∧ pol.toNat ≤ 1 ∧ e.toNat ≤ 32 ∧ entries.length = 3 * e.toNat then
        match (pieces 3 e.toNat entries).mapM (readAssignment n) with
        | some es => some (.byItem n (if pol = 0 then .shareAll else .refuse) es)
        | none => none
      else none
    | _ => none
  | 3 =>
    if 2 ≤ n ∧ n ≤ 16 ∧ rest.length = 3 * (n - 1) then
      match (pieces 3 (n - 1) rest).mapM readAmount with
      | some amounts => some (.byAmount n amounts)
      | none => none
    else none
  | _ => none

/-- A SPLIT: tab [2], mode [1], share count [1], the fields of its mode (R115, R156). -/
def readSplit : List Byte → Option (Nat × SplitSpec)
  | t0 :: t1 :: mode :: n :: rest => (readSplitFields mode n.toNat rest).map (fun spec => (read2 t0 t1, spec))
  | _ => none

/-- Tender methods (R156). -/
def readMethod (b : Byte) : Option Method :=
  match b.toNat with
  | 1 => some .cash
  | 2 => some .card
  | 3 => some .voucher
  | _ => none

/-- A TENDER's fields. -/
structure TenderFields where
  tab    : Nat
  share  : Nat
  method : Method
  amount : Nat
  deriving DecidableEq, Repr

/-- A TENDER: tab [2], share [1], 1 to 16, method [1], amount [3], 1 to 9,999,999 (R132). -/
def readTender : List Byte → Option TenderFields
  | [t0, t1, sh, m, a, b, c] =>
    match readMethod m with
    | none => none
    | some method =>
      if 1 ≤ sh.toNat ∧ sh.toNat ≤ 16 ∧ 1 ≤ read3 a b c ∧ read3 a b c ≤ Config.totalLimit then
        some { tab := read2 t0 t1, share := sh.toNat, method := method, amount := read3 a b c }
      else none
  | _ => none

/-- The share index that a TENDER body holds, for the refusal detail of a PARSE (R157; DESIGN CHOICE, assumption 8). -/
def namedShare : List Byte → Nat
  | _ :: _ :: sh :: _ => sh.toNat
  | _ => 0

/-! ### Station frames -/

/-- A TAKEN: ticket [2], revision [1] (R76). -/
def readTaken : List Byte → Option (Nat × Byte)
  | [a, b, r] => some (read2 a b, r)
  | _ => none

/-- A CANCEL TICKET: ticket [2], 1 to 65,535 (R85). -/
def readTicketNumber (body : List Byte) : Option Nat :=
  match readNumber body with
  | some n => if n = 0 then none else some n
  | none => none

/-! ### Loads -/

/-- A role byte and its group byte (R165): a TILL has a group 1 to 8, any other role has 0. -/
def readRole (role group : Nat) : Option PortRole :=
  match role with
  | 0 => if group = 0 then some .unused else none
  | 1 => if h : 1 ≤ group ∧ group ≤ 8 then some (.till ⟨group - 1, by omega⟩) else none
  | 2 => if group = 0 then some .station else none
  | _ => none

/-- One LOAD PORTS entry: port [1], role [1], group [1] (R165). -/
def readPortEntry : List Byte → Option (Port × PortRole)
  | [p, r, g] =>
    match assignablePort p.toNat, readRole r.toNat g.toNat with
    | some port, some role => some (port, role)
    | _, _ => none
  | _ => none

/-- A LOAD PORTS: entry count [1], 1 to 23, and the entries (R165). -/
def readLoadPorts : List Byte → Option (List (Port × PortRole))
  | e :: rest =>
    if 1 ≤ e.toNat ∧ e.toNat ≤ 23 ∧ rest.length = 3 * e.toNat then (pieces 3 e.toNat rest).mapM readPortEntry else none
  | [] => none

/-- The four rates of LOAD TAXES, clamped (R43). -/
def readTaxes (body : List Byte) : Option (Vector Nat 4) :=
  match body with
  | [a0, a1, b0, b1, c0, c1, d0, d1] =>
    some #v[min (read2 a0 a1) 3000, min (read2 b0 b1) 3000, min (read2 c0 c1) 3000, min (read2 d0 d1) 3000]
  | _ => none

/-- The eight rates of LOAD GROUPS, clamped (R44). -/
def readGroups (body : List Byte) : Option (Vector Nat 8) :=
  match body with
  | [a0, a1, b0, b1, c0, c1, d0, d1, e0, e1, f0, f1, g0, g1, h0, h1] =>
    some #v[min (read2 a0 a1) 3000, min (read2 b0 b1) 3000, min (read2 c0 c1) 3000, min (read2 d0 d1) 3000,
      min (read2 e0 e1) 3000, min (read2 f0 f1) 3000, min (read2 g0 g1) 3000, min (read2 h0 h1) 3000]
  | _ => none

/-- A station byte of an item entry, looked at only where the station-present flag is set (R46). -/
def readItemStation (present : Bool) (b : Byte) : Option (Option Port) :=
  if present then (assignablePort b.toNat).map some else some none

/-- The tracking part of an item entry, looked at only where the tracking-present flag is set (R46): stock takes the level. -/
def readTracking (present : Bool) (level low : Nat) : Option (Option Tracking) :=
  if present then
    if level ≤ 9999 ∧ low ≤ 99 then some (some { level := level, stock := level, sold := 0, lowMark := low }) else none
  else some none

/-- A defined item entry's fields after its flags (R46). -/
def readItemFields (flags : Byte) (price cls : Nat) (station : Byte) (level low : Nat) : Option Item :=
  if h : price ≤ 99999 ∧ cls < 4 then
    match readItemStation (flags.getLsbD 1) station, readTracking (flags.getLsbD 2) level low with
    | some st, some tr => some { price := price, taxClass := ⟨cls, h.2⟩, station := st, tracking := tr }
    | _, _ => none
  else none

/-- One LOAD ITEMS entry, 11 bytes: item [2], flags [1], price [3], tax class [1], station [1], level [2], low mark [1]. A clear
defined flag makes the item undefined, and no field after the flags is looked at (R46). -/
def readItemEntry : List Byte → Option (Nat × Option Item)
  | [i0, i1, flags, p0, p1, p2, cls, st, l0, l1, low] =>
    if isItemCode (read2 i0 i1) ∧ flags.toNat < 8 then
      if flags.getLsbD 0 then
        (readItemFields flags (read3 p0 p1 p2) cls.toNat st (read2 l0 l1) low.toNat).map (fun x => (read2 i0 i1, some x))
      else some (read2 i0 i1, none)
    else none
  | _ => none

/-- A list of item entries: entry count [1], 1 to `most`, and the entries. `most` is 8 in LOAD ITEMS (R46) and 64 in an ITEMS
node (R159). -/
def readItemList (most : Nat) : List Byte → Option (List (Nat × Option Item))
  | e :: rest =>
    if 1 ≤ e.toNat ∧ e.toNat ≤ most ∧ rest.length = 11 * e.toNat then (pieces 11 e.toNat rest).mapM readItemEntry
    else none
  | [] => none

/-- A station table entry as loaded (R166). -/
structure StationEntry where
  alternate : Option Port
  balance   : Bool
  window    : Nat
  deriving DecidableEq, Repr

/-- A window, clamped to 1 to 4 (R166). -/
def clampWindow (n : Nat) : Nat := max 1 (min n 4)

/-- One LOAD STATIONS entry: port [1], flags [1], alternate [1], window [1] (R166). -/
def readStationEntry : List Byte → Option (Port × StationEntry)
  | [p, flags, alt, w] =>
    if flags.toNat < 4 then
      match assignablePort p.toNat, readItemStation (flags.getLsbD 0) alt with
      | some port, some alternate =>
        some (port, { alternate := alternate, balance := flags.getLsbD 1, window := clampWindow w.toNat })
      | _, _ => none
    else none
  | _ => none

/-- A LOAD STATIONS: entry count [1], 1 to 23, and the entries (R166). -/
def readLoadStations : List Byte → Option (List (Port × StationEntry))
  | e :: rest =>
    if 1 ≤ e.toNat ∧ e.toNat ≤ 23 ∧ rest.length = 4 * e.toNat then (pieces 4 e.toNat rest).mapM readStationEntry else none
  | [] => none

/-- A number clamped to a range, to the nearest limit (R167). -/
def clamp (lo hi n : Nat) : Nat := max lo (min n hi)

/-- A LOAD TIMERS: hold time [2], ack time [1], image period [2], bump guard [1], each clamped to its range (R167). -/
def readTimers : List Byte → Option Timers
  | [h0, h1, a, i0, i1, b] =>
    some { hold := clamp 10 600 (read2 h0 h1), ack := clamp 5 100 a.toNat, image := clamp 5 300 (read2 i0 i1),
           bump := clamp 0 30 b.toNat }
  | _ => none

/-- The timers as a LOAD TIMERS body carries them (R156). -/
def timerBytes (t : Timers) : List Byte := num2 t.hold ++ num1 t.ack ++ num2 t.image ++ num1 t.bump

/-! ### Other management requests -/

/-- A SET STOCK: item [2], level [2], 0 to 9,999 (R49). -/
def readSetStock : List Byte → Option (Nat × Nat)
  | [i0, i1, l0, l1] =>
    if isItemCode (read2 i0 i1) && read2 l0 l1 ≤ 9999 then some (read2 i0 i1, read2 l0 l1) else none
  | _ => none

/-- An ADJUST STOCK: item [2], delta [2], signed, -9,999 to 9,999 (R50). -/
def readAdjustStock : List Byte → Option (Nat × Int)
  | [i0, i1, d0, d1] =>
    if isItemCode (read2 i0 i1) && -9999 ≤ readSigned2 d0 d1 && readSigned2 d0 d1 ≤ 9999 then
      some (read2 i0 i1, readSigned2 d0 d1)
    else none
  | _ => none

/-- A READ ITEMS: starting item [2], 1 to 1,023 (R47). -/
def readReadItems (body : List Byte) : Option Nat :=
  match readNumber body with
  | some c => if isItemCode c then some c else none
  | none => none

/-- A RESET PORT: port [1], 0 to 23 (R152). -/
def readResetPort : List Byte → Option Port
  | [p] => if h : p.toNat < 24 then some ⟨p.toNat, h⟩ else none
  | _ => none

/-- A NOTICE MASK: mask [1], bit 7 clear (R170). -/
def readMask : List Byte → Option Byte
  | [m] => if m.getLsbD 7 then none else some m
  | _ => none

end Sys2Proof.Machine
end

