-- ==== Sys2Proof/Machine/Items.lean ====
section
/-! DEFINITION. The tax, group and item tables, stock and the availability list (chapter 3): R43 to R51 and R61 to R63. -/

namespace Sys2Proof.Machine

/-! ### Availability (R48, R51, R61) -/

/-- The availability of an item entry (R48). -/
def availabilityOf : Option Item → Availability
  | none => .inStock
  | some i =>
    match i.tracking with
    | none => .inStock
    | some t => if t.stock = 0 then .out else if t.stock ≤ t.lowMark then .low else .inStock

/-- The stock of an item entry, none when it is untracked or undefined (R51). -/
def stockOf (i : Option Item) : Option Nat := (i.bind Item.tracking).map Tracking.stock

/-- A till port has missed availability changes: its stale flag is set, and an image in progress starts again (R63). -/
def LanePort.markStale (x : LanePort) : LanePort :=
  { x with stale := true, image := x.image.map (fun _ => 0) }

/-- `LanePort.markStale` at one port. -/
def State.markStale (s : State) (p : Port) : State := s.setPort p (s.port p).markStale

/-- Every TILL port, ascending. -/
def State.tillPorts (s : State) : List Port := allPorts.filter (fun p => (s.role p).isTill)

/-- A change of availability enters the availability list (R61). -/
def State.latchChange (s : State) (e : AvailEntry) : State :=
  if s.availList.any (fun x => x.item = e.item) then
    { s with availList := s.availList.map (fun x => if x.item = e.item then e else x) }
  else if s.availList.length < 32 then
    { s with availList := s.availList ++ [e] }.raise (.stock e.item e.availability e.stock)
  else
    { s.tillPorts.foldl State.markStale s with availList := [e] }.raise (.stock e.item e.availability e.stock)

/-- One item's availability at an event's end is compared with that at its start, and a change is latched (R51). -/
def State.latchItem (s before : State) (c : Nat) : State :=
  if availabilityOf (before.item c) = availabilityOf (s.item c) then s
  else s.latchChange { item := c, availability := availabilityOf (s.item c), stock := stockOf (s.item c) }

/-- Puts a code into an ascending list that holds each code once. -/
def insertCode (c : Nat) : List Nat → List Nat
  | [] => [c]
  | d :: rest => if c < d then c :: d :: rest else if c = d then d :: rest else d :: insertCode c rest

/-- The codes of a list, each once, ascending. -/
def ascendingCodes (codes : List Nat) : List Nat := codes.foldr insertCode []

/-- The availability changes of one event, from the state `before` it, are latched item by item, in ascending code (R51). -/
def State.latchItems (s before : State) (codes : List Nat) : State :=
  (ascendingCodes codes).foldl (fun acc c => acc.latchItem before c) s

/-! ### Stock (R48) -/

/-- Changes the tracking part of an item that is defined and tracked. -/
def State.mapTracking (s : State) (c : Nat) (f : Tracking → Tracking) : State :=
  match s.item c with
  | none => s
  | some i => s.setItem c (some { i with tracking := i.tracking.map f })

/-- An ORDER accepts a line of quantity q: stock falls and sold rises (R48, R56). -/
def sellStock (q : Nat) (t : Tracking) : Tracking := { t with stock := t.stock - q, sold := t.sold + q }

/-- A VOID returns a line of quantity q (R48, R59). -/
def returnStock (q : Nat) (t : Tracking) : Tracking := { t with stock := t.stock + q, sold := t.sold - q }

/-! ### Requests on the tables -/

/-- A load that is answered BUSY while a SAVE CONFIG runs (R173), whatever its body (DEDUCED, assumption 14). -/
def State.unlessSaving (s : State) (p : Port) (load : State) : State :=
  if s.save.isSome then s.refuse p .busy {} else load

/-- Rates as a reply carries them (R157). -/
def rateBytes (rates : List Nat) : List Byte := rates.flatMap num2

/-- LOAD TAXES when taken (R43). -/
def takeLoadTaxes (p : Port) (body : List Byte) (s : State) : State :=
  s.unlessSaving p (match readTaxes body with
    | none => s.refuse p .parse {}
    | some rates => { s with taxRates := rates }.reply p .ok (rateBytes rates.toList))

/-- LOAD GROUPS when taken (R44). -/
def takeLoadGroups (p : Port) (body : List Byte) (s : State) : State :=
  s.unlessSaving p (match readGroups body with
    | none => s.refuse p .parse {}
    | some rates => { s with serviceRates := rates }.reply p .ok (rateBytes rates.toList))

/-- Item entries are loaded in order, each at once (R46, R163). -/
def State.loadItems (s : State) (entries : List (Nat × Option Item)) : State :=
  entries.foldl (fun acc e => acc.setItem e.1 e.2) s

/-- LOAD ITEMS when taken (R46): the entries are loaded, availability changes are latched, the reply counts the entries. -/
def takeLoadItems (p : Port) (body : List Byte) (s : State) : State :=
  s.unlessSaving p (match readItemList 8 body with
    | none => s.refuse p .parse {}
    | some entries =>
      ((s.loadItems entries).latchItems s (entries.map Prod.fst)).reply p .ok (num1 entries.length))

/-- An item's entry in READ ITEMS (R157); fields of an absent part are 0 (DESIGN CHOICE, assumption 9). -/
def readItemBytes (c : Nat) (i : Item) : List Byte :=
  let t := i.tracking.getD { level := 0, stock := 0, sold := 0, lowMark := 0 }
  num2 c ++ num1 (readItemFlags i (availabilityOf (some i))) ++ money i.price ++ num1 (portNumber i.station)
    ++ num2 t.level ++ num2 t.stock ++ num2 t.sold ++ num1 t.lowMark

/-- The continuation of a walk that lists up to `page` entries of an ascending list and examines numbers up to `last` (R16, R47):
one above the last number examined if it stopped at a full page before passing `last`, and 0 if it reached the end. -/
def continuation (page last : Nat) (listed : List Nat) : Nat :=
  if listed.length < page then 0
  else match listed.getLast? with
    | none => 0
    | some n => if n < last then n + 1 else 0

/-- The items that a READ ITEMS from this code lists (R47). -/
def State.itemsFrom (s : State) (c : Nat) : List (Nat × Item) := (s.items.filter (fun e => c ≤ e.1)).take 8

/-- READ ITEMS when taken (R47). -/
def takeReadItems (p : Port) (body : List Byte) (s : State) : State :=
  match readReadItems body with
  | none => s.refuse p .parse {}
  | some c =>
    let listed := s.itemsFrom c
    s.reply p .ok (num1 listed.length ++ listed.flatMap (fun e => readItemBytes e.1 e.2)
      ++ num2 (continuation 8 1023 (listed.map Prod.fst)))

/-- The stock fields of a SET STOCK or ADJUST STOCK reply after the change. -/
def stockBytes (i : Option Item) (withSold : Bool) : List Byte :=
  let t := (i.bind Item.tracking).getD { level := 0, stock := 0, sold := 0, lowMark := 0 }
  num2 t.stock ++ (if withSold then num2 t.sold else []) ++ num2 t.level ++ num1 (availabilityCode (availabilityOf i))

/-- An item's tracking part after SET STOCK (R49): the low mark is kept, and is 0 when tracking begins. -/
def setTracking (v : Nat) (t : Option Tracking) : Tracking :=
  { level := v, stock := v, sold := 0, lowMark := (t.map Tracking.lowMark).getD 0 }

/-- SET STOCK when taken (R49). -/
def takeSetStock (p : Port) (body : List Byte) (s : State) : State :=
  s.unlessSaving p (match readSetStock body with
    | none => s.refuse p .parse {}
    | some (c, v) =>
      match s.item c with
      | none => s.refuse p .parse {}
      | some i =>
        let x : Item := { i with tracking := some (setTracking v i.tracking) }
        ((s.setItem c (some x)).latchItems s [c]).reply p .ok (stockBytes (some x) true))

/-- The delta that ADJUST STOCK applies (R50): reduced so that stock does not go below 0 and level not above 9,999. -/
def appliedDelta (d : Int) (t : Tracking) : Int :=
  if 0 ≤ d then min d (9999 - (t.level : Int)) else max d (-(t.stock : Int))

/-- A tracking part after ADJUST STOCK: the delta goes to stock and level together (R48, R50). -/
def adjustTracking (d : Int) (t : Tracking) : Tracking :=
  { t with stock := ((t.stock : Int) + appliedDelta d t).toNat, level := ((t.level : Int) + appliedDelta d t).toNat }

/-- ADJUST STOCK when taken (R50). -/
def takeAdjustStock (p : Port) (body : List Byte) (s : State) : State :=
  s.unlessSaving p (match readAdjustStock body with
    | none => s.refuse p .parse {}
    | some (c, d) =>
      match s.item c with
      | none => s.refuse p .parse {}
      | some i =>
        match i.tracking with
        | none => s.refuse p .parse {}
        | some t =>
          let x : Item := { i with tracking := some (adjustTracking d t) }
          ((s.setItem c (some x)).latchItems s [c]).reply p .ok
            (signed2 (appliedDelta d t) ++ stockBytes (some x) false))

/-! ### The availability list's frames and images (R62, R63) -/

/-- The bytes of a list of availability entries: item [2], availability and stock [2] (R158). -/
def availabilityBytes (entries : List AvailEntry) : List Byte :=
  entries.flatMap (fun e => num2 e.item ++ num2 (availabilityWord e.availability e.stock))

/-- A frame from the availability list is outstanding: a copy of it is still in some transmit queue (R62). Read off
the queues (DESIGN CHOICE, assumption 18). -/
def State.offerOutstanding (s : State) : Bool :=
  allPorts.any (fun p => (s.port p).frames.any (fun f => f.source = .offer))

/-- The offer to one TILL port: a copy if it has room, and otherwise its stale flag (R62). -/
def State.offerTo (body : List Byte) (s : State) (p : Port) : State :=
  if (s.port p).hasRoom then s.sendOwn p .availability body .offer else s.markStale p

/-- The offer of the availability list's next frame to every TILL port at once, when one may be made (R62). -/
def State.offerAvailability (s : State) : State :=
  if s.availList = [] ∨ s.offerOutstanding = true then s
  else
    let entries := s.availList.take 8
    let body := num1 (availabilityFlags false false false) ++ num1 entries.length ++ availabilityBytes entries
    { s.tillPorts.foldl (State.offerTo body) s with availList := s.availList.drop 8 }

/-- The items that are LOW or OUT beyond a code, ascending (R63). -/
def State.shortItems (s : State) (after : Nat) : List AvailEntry :=
  (s.items.filter (fun e => after < e.1 && decide (availabilityOf (some e.2) ≠ .inStock))).map (fun e =>
    { item := e.1, availability := availabilityOf (some e.2), stock := stockOf (some e.2) })

/-- An availability image frame may be queued at the port (R63): a TILL port that is stale, with an empty transmit queue. -/
def State.imageFrameDue (s : State) (p : Port) : Bool :=
  (s.role p).isTill && (s.port p).stale && (s.port p).frames.isEmpty

/-- The next frame of a till port's availability image is composed and queued (R63). -/
def State.sendAvailabilityImage (s : State) (p : Port) : State :=
  let after := (s.port p).image.getD 0
  let rest := s.shortItems after
  let entries := rest.take 30
  let last := rest.length ≤ 30
  let body := num1 (availabilityFlags true last (after = 0)) ++ num1 entries.length ++ availabilityBytes entries
  let sent := s.sendOwn p .availability body .own
  sent.setPort p (if last then { sent.port p with stale := false, image := none }
    else { sent.port p with image := (entries.getLast?).map AvailEntry.item })

/-- AVAIL QUERY when taken (R63). -/
def takeAvailQuery (p : Port) (body : List Byte) (s : State) : State :=
  match emptyBody body with
  | none => s.refuse p .parse {}
  | some _ => (s.markStale p).reply p .ok []

end Sys2Proof.Machine
end

