-- ==== Sys2Proof/Machine/Kitchen.lean ====
section
/-! DEFINITION. The kitchen unit (chapters 4 and 5): tickets, station queues, the overflow list, sending, recall, striking,
dark handling and images. R64 to R99. -/

namespace Sys2Proof.Machine

/-! ### Stations and live tickets (R64, R66, R67) -/

/-- The port is a STATION port (R141). -/
def State.isStation (s : State) (p : Port) : Bool := s.role p = .station

/-- A station's alternate, where it counts: a STATION port other than the station itself (R64). -/
def State.alternateOf (s : State) (p : Port) : Option Port :=
  match (s.station p).alternate with
  | none => none
  | some a => if a ≠ p ∧ s.isStation a = true then some a else none

/-- A station's alternate that counts and is READY. -/
def State.readyAlternate (s : State) (p : Port) : Option Port :=
  match s.alternateOf p with
  | none => none
  | some a => if (s.station a).ready then some a else none

/-- Every live ticket: those of the station queues and those of the overflow list (R66). -/
def State.liveTickets (s : State) : List Ticket :=
  allPorts.flatMap (fun p => (s.station p).queue) ++ s.overflow

/-- A live ticket has this number. -/
def State.isLiveNumber (s : State) (n : Nat) : Bool := s.liveTickets.any (fun t => t.number = n)

/-- The ticket number after another: from 65,535 to 1 (R67). -/
def nextNumber (n : Nat) : Nat := if n ≥ 65535 then 1 else n + 1

/-- The first number at or after `n` that is not in a list, looking at most `fuel` numbers further (R67). -/
def firstFree (taken : List Nat) : Nat → Nat → Nat
  | 0, n => n
  | fuel + 1, n => if n ∈ taken then firstFree taken fuel (nextNumber n) else n

/-- The number R67 gives now: the counter's value, advanced past the numbers of live tickets. Of as many successive numbers as
there are live tickets and one more, one is free. -/
def State.freshNumber (s : State) : Nat :=
  firstFree (s.liveTickets.map Ticket.number) s.liveTickets.length s.ticketCounter

/-- A tab's live-ticket count goes up (R10). -/
def State.raiseLive (s : State) (t k : Nat) : State := s.setDir t { s.dir t with live := (s.dir t).live + k }

/-- A tab's live-ticket count falls by 1 (R10). -/
def State.lowerLive (s : State) (t : Nat) : State := s.setDir t { s.dir t with live := (s.dir t).live - 1 }

/-! ### Places (R69 to R72) -/

/-- A place found for a new ticket (R69, R70): its target station, and the target's queue or the overflow list. -/
structure Place where
  target  : Port
  inQueue : Bool
  deriving DecidableEq, Repr

/-- The length of a station's queue, with the tickets already given places in it earlier in the same order (R69). -/
def State.queueLength (s : State) (done : List Place) (p : Port) : Nat :=
  (s.station p).queue.length + (done.filter (fun d => d.inQueue && d.target = p)).length

/-- The target of a new ticket for a station (R69). -/
def State.target (s : State) (done : List Place) (p : Port) : Port :=
  match s.readyAlternate p with
  | none => p
  | some a =>
    if (s.station p).ready then
      if (s.station p).balance && s.queueLength done a < s.queueLength done p then a else p
    else a

/-- The place of a new ticket for a station, or none (R69, R70). -/
def State.findPlace (s : State) (done : List Place) (p : Port) : Option Place :=
  let target := s.target done p
  if s.queueLength done target < 24 then some { target := target, inQueue := true }
  else if s.overflow.length + (done.filter (fun d => !d.inQueue)).length < 48 then
    some { target := target, inQueue := false }
  else none

/-- A ticket enters a queue by its rush flag (R71): a rush ticket directly after the last rush ticket, or at the head if there is
none; any other ticket at the tail. -/
def enterQueue (queue : List Ticket) (t : Ticket) : List Ticket :=
  if t.rush then
    let behind := (queue.reverse.takeWhile (fun x => !x.rush)).length
    queue.take (queue.length - behind) ++ t :: queue.drop (queue.length - behind)
  else queue ++ [t]

/-- A ticket joins a station's queue (R71). -/
def State.joinQueue (s : State) (p : Port) (t : Ticket) : State :=
  s.setStation p { s.station p with queue := enterQueue (s.station p).queue t }

/-- A new ticket is created at its place (R68). -/
def State.placeTicket (s : State) (place : Place) (t : Ticket) : State :=
  if place.inQueue then s.joinQueue place.target t else { s with overflow := s.overflow ++ [t] }

/-- An overflow ticket of a DARK station whose alternate counts and is READY is re-targeted to it (R91, R65). -/
def State.retargeted (s : State) (t : Ticket) : Ticket :=
  if (s.station t.station).ready then t
  else match s.readyAlternate t.station with
    | none => t
    | some a => { t with station := a, everTransmitted := false }

/-- R91 is applied to every overflow ticket it concerns. -/
def State.retarget (s : State) : State := { s with overflow := s.overflow.map s.retargeted }

/-- The overflow ticket that promotion takes for a station: its rush ticket longest in the list, or else its ticket longest in
the list (R72). -/
def promotionChoice (overflow : List Ticket) (p : Port) : Option Ticket :=
  (overflow.find? (fun t => t.station = p && t.rush)).or (overflow.find? (fun t => t.station = p))

/-- One promotion into a station's queue, if its queue has room and the overflow list holds a ticket of the station (R72). -/
def State.promoteOne (s : State) (p : Port) : State :=
  if (s.station p).queue.length < 24 then
    match promotionChoice s.overflow p with
    | none => s
    | some t => { s with overflow := s.overflow.erase t }.joinQueue p t
  else s

/-- Promotion into one station's queue, repeated while both of R72's conditions hold (as often as there are overflow tickets). -/
def State.promoteStation (s : State) (p : Port) : State :=
  (List.range s.overflow.length).foldl (fun acc _ => acc.promoteOne p) s

/-- Re-targeting (R91) and then promotion at every station (R72: whenever a queue has room and the overflow list a ticket for it). -/
def State.promote (s : State) : State := allPorts.foldl State.promoteStation s.retarget

/-! ### The sent list and the ack timer (R73 to R75) -/

/-- The moment an ack timer started now expires (R75). -/
def State.ackDeadline (s : State) : Nat := s.now + 100 * s.timers.ack

/-- The ack timer starts, restarts or stops for the ticket now at the head of the sent list (R75). -/
def State.restartAck (s : State) (p : Port) : State :=
  s.setStation p { s.station p with ackTimer := if (s.station p).sent = [] then none else some s.ackDeadline }

/-- A ticket leaves a station's sent list; the ack timer is touched only when it was the head (R75). -/
def State.leaveSent (s : State) (p : Port) (n : Nat) : State :=
  let x := s.station p
  let s1 := s.setStation p { x with sent := x.sent.erase n }
  if x.sent.head? = some n then s1.restartAck p else s1

/-- Changes the tickets of a number in a station's queue. -/
def State.mapTicket (s : State) (p : Port) (n : Nat) (f : Ticket → Ticket) : State :=
  s.setStation p { s.station p with
    queue := (s.station p).queue.map (fun t => if t.number = n then f t else t) }

/-- The ticket of a number in a station's queue: a ticket "of this station" (R76). -/
def State.ticketOf (s : State) (p : Port) (n : Nat) : Option Ticket :=
  (s.station p).queue.find? (fun t => t.number = n)

/-- Removes the ticket of a number from a station's queue and, if it was SENT, from the sent list. -/
def State.removeFromQueue (s : State) (p : Port) (n : Nat) : State :=
  let s1 := s.setStation p { s.station p with queue := (s.station p).queue.filter (fun t => t.number ≠ n) }
  if n ∈ (s.station p).sent then s1.leaveSent p n else s1

/-- The body of a TICKET frame (R158). -/
def ticketBody (t : Ticket) : List Byte :=
  num2 t.number ++ [t.revision] ++ num2 t.tab ++ num1 t.origin.val ++ num1 (ticketFlags t) ++ num1 t.lines.length
    ++ t.lines.flatMap (fun l => num2 l.item ++ num1 l.quantity ++ [l.modifier])

/-- The first QUEUED or STALE ticket of a station's queue (R73). -/
def nextToSend (queue : List Ticket) : Option Ticket :=
  queue.find? (fun t => t.state = .queued || t.state = .stale)

/-- The conditions under which R73 sends a station a ticket: READY, a SENT count below its window, room at its port, no urgent
image owed (R98) and no trickle image due first (R97; DEDUCED, assumption 16). -/
def State.maySendTicket (s : State) (p : Port) : Bool :=
  let x := s.station p
  x.ready && decide (x.sent.length < x.window) && (s.port p).hasRoom && decide (x.resync ≠ 3)
    && !(decide (x.resync ≠ 0) && (s.port p).frames.isEmpty)

/-- A TICKET frame is queued for a ticket, which becomes SENT and joins the sent list; the ack timer starts if that list was
empty (R73, R75). -/
def State.sendTicket (s : State) (p : Port) (t : Ticket) : State :=
  let s1 := s.sendOwn p .ticket (ticketBody t) .own
  let s2 := s1.mapTicket p t.number (fun u => { u with state := .sent, everTransmitted := true })
  let x := s2.station p
  let s3 := s2.setStation p { x with sent := x.sent ++ [t.number] }
  if x.sent = [] then s3.restartAck p else s3

/-- One SENT ticket at the tail of a sent list returns to QUEUED (R74). -/
def State.unsendNewest (s : State) (p : Port) : State :=
  match (s.station p).sent.getLast? with
  | none => s
  | some n => (s.mapTicket p n (fun t => { t with state := .queued })).leaveSent p n

/-- A smaller window returns the newest SENT tickets to QUEUED until the SENT count is the window (R74). -/
def State.fitWindow (s : State) (p : Port) : State :=
  (List.range ((s.station p).sent.length - (s.station p).window)).foldl (fun acc _ => acc.unsendNewest p) s

/-! ### WITHDRAW and images (R84, R95 to R99) -/

/-- A WITHDRAW of a removed ticket is offered to its station, if the ticket was ever transmitted and the port is a STATION port;
without room the station is owed an image instead (R84, R95). -/
def State.offerWithdraw (s : State) (t : Ticket) : State :=
  if t.everTransmitted && s.isStation t.station then
    if (s.port t.station).hasRoom then s.sendOwn t.station .withdraw (num2 t.number) .own
    else s.setStation t.station { s.station t.station with resync := 3 }
  else s

/-- The body of an IMAGE frame: the station's queue in order (R99, R158). -/
def imageBody (queue : List Ticket) : List Byte :=
  num1 queue.length ++ queue.flatMap (fun t => num2 t.number ++ num1 (imageFlags t))

/-- An IMAGE frame is composed and queued, and the resync counter changes (R95, R99). -/
def State.sendImage (s : State) (p : Port) (resync : Fin 4) : State :=
  let s1 := s.sendOwn p .image (imageBody (s.station p).queue) .own
  s1.setStation p { s1.station p with resync := resync }

/-- A resync counter lowered by 1 (R95). -/
def lowerResync (c : Fin 4) : Fin 4 := if c = 0 then 0 else c - 1

/-- A resync counter raised by 1, to at most 3 (R95, R96). -/
def raiseResync (c : Fin 4) : Fin 4 := if c = 3 then 3 else c + 1

/-! ### Striking a line (R82 to R84) -/

/-- A live ticket carries a line of a tab under the number in the line's ticket field (R82). -/
def carriesLine (tab line field : Nat) (t : Ticket) : Bool :=
  t.tab = tab && (t.number = field || t.original = field) && t.lines.any (fun l => l.line = line)

/-- What the kitchen unit finds for a tab line whose ticket field holds a number (R82). -/
def State.findLineTicket (s : State) (tab line field : Nat) : Option Ticket :=
  s.liveTickets.find? (carriesLine tab line field)

/-- The ticket stands in the overflow list. -/
def State.inOverflow (s : State) (n : Nat) : Bool := s.overflow.any (fun t => t.number = n)

/-- A ticket after a line is struck from it (R83). -/
def struckTicket (line : Nat) (t : Ticket) : Ticket :=
  { t with
    lines := t.lines.filter (fun l => l.line ≠ line),
    revision := if t.state = .queued then t.revision else t.revision + 1,
    state := if t.state = .queued then .queued else .stale }

/-- A live ticket leaves its place and its tab's count falls; if it left a station queue, promotion follows; a WITHDRAW is offered
(R84, R85). -/
def State.removeTicket (s : State) (t : Ticket) : State :=
  if s.inOverflow t.number then
    ({ s with overflow := s.overflow.filter (fun u => u.number ≠ t.number) }.lowerLive t.tab).offerWithdraw t
  else (((s.removeFromQueue t.station t.number).lowerLive t.tab).promote).offerWithdraw t

/-- Line `line` is struck from a live, unstarted ticket (R83, R84). -/
def State.strikeLine (s : State) (t : Ticket) (line : Nat) : State :=
  let u := struckTicket line t
  if u.lines = [] then s.removeTicket t
  else if s.inOverflow t.number then
    { s with overflow := s.overflow.map (fun x => if x.number = t.number then u else x) }
  else
    let s1 := s.mapTicket t.station t.number (fun _ => u)
    if t.state = .sent then s1.leaveSent t.station t.number else s1

/-! ### What a station sends (R76 to R81, R87) -/

/-- A TAKEN for the revision sent: the ticket becomes SHOWN and leaves the sent list, and the ack timer follows (R75, R76). -/
def State.showTicket (s : State) (p : Port) (n : Nat) : State :=
  let s1 := s.mapTicket p n (fun t => { t with state := .shown })
  (s1.setStation p { s1.station p with sent := (s1.station p).sent.erase n }).restartAck p

/-- TAKEN (R76): a body of another length, and a TAKEN that no row of R76's table takes for an answer, is ignored
(DEDUCED, assumption 10, for a STALE ticket named at its own revision). -/
def takeTaken (p : Port) (body : List Byte) (s : State) : State :=
  match readTaken body with
  | none => s
  | some (n, revision) =>
    match s.ticketOf p n with
    | none => s
    | some t =>
      if t.state = .sent ∧ t.revision = revision then s.showTicket p n
      else if (t.state = .sent ∨ t.state = .stale) ∧ t.revision ≠ revision then s.restartAck p
      else s

/-- START when taken (R77). A QUEUED or SENT ticket is answered UNKNOWN-TICKET also when its started flag is set already, as it can be after
a HELLO or a RECALL (DEDUCED, assumption 28: R77's sentence on a flag already set is read as one on the SHOWN and STALE tickets before it). -/
def takeStart (p : Port) (body : List Byte) (s : State) : State :=
  match readNumber body with
  | none => s.refuse p .parse {}
  | some n =>
    match s.ticketOf p n with
    | none => s.refuse p .unknownTicket {}
    | some t =>
      if t.state = .shown ∨ t.state = .stale then
        (s.mapTicket p n (fun u => { u with started := true })).reply p .ok (num2 n)
      else s.refuse p .unknownTicket {}

/-- A BUMP that comes within the bump guard of the last accepted bump (R78). -/
def State.guardsBump (s : State) (p : Port) : Bool :=
  match (s.station p).lastBump with
  | none => false
  | some t => decide (0 < s.timers.bump ∧ s.now - t < 100 * s.timers.bump)

/-- A recall list with a bumped ticket pushed onto its front; the fifth is dropped (R80). -/
def pushRecall (recalls : List RecallEntry) (t : Ticket) : List RecallEntry :=
  ({ ticket := t, gone := false } :: recalls).take 4

/-- A BUMP that passes the guard removes its ticket (R79). -/
def State.bumpTicket (s : State) (p : Port) (t : Ticket) : State :=
  let s1 := (s.removeFromQueue p t.number).lowerLive t.tab
  (s1.setStation p { s1.station p with
    recalls := pushRecall (s1.station p).recalls t, lastBump := some s.now }).promote

/-- BUMP when taken (R78, R79). A malformed body is PARSE before the guard is looked at (DEDUCED, assumption 25). -/
def takeBump (p : Port) (body : List Byte) (s : State) : State :=
  match readNumber body with
  | none => s.refuse p .parse {}
  | some n =>
    if s.guardsBump p then s.refuse p .ignored {}
    else match s.ticketOf p n with
      | none => s.refuse p .unknownTicket {}
      | some t =>
        if t.state = .queued then s.refuse p .unknownTicket {}
        else (s.bumpTicket p t).reply p .ok (num2 n ++ num2 t.tab)

/-- The number of a recalled ticket: its own, unless a live ticket has it (R81). -/
def State.recallNumber (s : State) (t : Ticket) : Nat :=
  if s.isLiveNumber t.number then s.freshNumber else t.number

/-- A recalled ticket as it enters the queue (R81). -/
def State.recalledTicket (s : State) (p : Port) (t : Ticket) : Ticket :=
  { t with number := s.recallNumber t, station := p, state := .queued, everTransmitted := false }

/-- RECALL puts the newest entry of the recall list back at the head of the queue (R81). -/
def State.recallEntry (s : State) (p : Port) (t : Ticket) : State :=
  let u := s.recalledTicket p t
  let x := s.station p
  let s1 := s.setStation p { x with recalls := x.recalls.tail, queue := u :: x.queue }
  let s2 := { s1 with ticketCounter := if s.isLiveNumber t.number then nextNumber u.number else s.ticketCounter }
  s2.raiseLive t.tab 1

/-- RECALL when taken (R81). -/
def takeRecall (p : Port) (body : List Byte) (s : State) : State :=
  match emptyBody body with
  | none => s.refuse p .parse {}
  | some _ =>
    match (s.station p).recalls with
    | [] => s.refuse p .unknownTicket {}
    | e :: rest =>
      if e.gone then (s.setStation p { s.station p with recalls := rest }).refuse p .gone {}
      else if 24 ≤ (s.station p).queue.length then s.refuse p .kitchenFull {}
      else (s.recallEntry p e.ticket).reply p .ok (num2 (s.recallNumber e.ticket) ++ num2 e.ticket.tab)

/-- Steps 1 to 4 of R87: the station is READY, its tickets QUEUED, its sent list empty, its resync counter 3. -/
def Station.hello (x : Station) : Station :=
  { x with
    ready := true, queue := x.queue.map (fun t => { t with state := .queued }), sent := [], ackTimer := none,
    resync := 3 }

/-- HELLO at a station (R87), its notice among it. -/
def State.helloStation (s : State) (p : Port) : State :=
  let s1 := (s.setStation p (s.station p).hello).promote
  if (s.station p).ready then s1 else s1.raise (.station p true .hello 0 (s1.station p).queue.length)

/-- HELLO when taken (R87). -/
def takeHello (p : Port) (body : List Byte) (s : State) : State :=
  match emptyBody body with
  | none => s.refuse p .parse {}
  | some _ => (s.helloStation p).reply p .ok (num1 ((s.helloStation p).station p).queue.length)

/-! ### Going dark (R88 to R90, R93) -/

/-- R89: the station is DARK, its SENT tickets are QUEUED again, its sent list is empty and its ack timer stopped. -/
def Station.goDark (x : Station) : Station :=
  { x with
    ready := false, queue := x.queue.map (fun t => if t.number ∈ x.sent then { t with state := .queued } else t),
    sent := [], ackTimer := none }

/-- One unstarted ticket moves to the alternate's queue, or to the overflow list, or stays (R90). The number counts the moves. -/
def State.moveTicket (p a : Port) (acc : State × Nat) (t : Ticket) : State × Nat :=
  let s := acc.1
  let u : Ticket := { t with state := .queued, station := a, everTransmitted := false }
  let left := s.setStation p { s.station p with queue := (s.station p).queue.filter (fun v => v.number ≠ t.number) }
  if (s.station a).queue.length < 24 then (left.joinQueue a u, acc.2 + 1)
  else if s.overflow.length < 48 then ({ left with overflow := left.overflow ++ [u] }, acc.2 + 1)
  else acc

/-- R90's moves, and how many there were. -/
def State.moveToAlternate (s : State) (p : Port) : State × Nat :=
  match s.readyAlternate p with
  | none => (s, 0)
  | some a => ((s.station p).queue.filter (fun t => !t.started)).foldl (State.moveTicket p a) (s, 0)

/-- The dark handling of a station: R89, the moves of R90, then re-targeting and promotion. -/
def State.darkHandling (s : State) (p : Port) : State × Nat :=
  let moved := (s.setStation p (s.station p).goDark).moveToAlternate p
  (moved.1.promote, moved.2)

/-- A station's ack timer expires (R88), at its moment or after it. -/
def State.ackExpiry (s : State) (p : Port) (deadline : Nat) : State :=
  let d := { s with now := max s.now deadline }.darkHandling p
  d.1.raise (.station p false .ackTimeout d.2 (d.1.station p).queue.length)

/-- The kitchen unit's part of a port reset (R93). -/
def State.kitchenReset (s : State) (p : Port) : State :=
  let s1 := s.setStation p { s.station p with recalls := [], lastBump := none }
  let d := s1.darkHandling p
  let s2 := d.1.setStation p { d.1.station p with resync := 3 }
  if (s.station p).ready then s2.raise (.station p false .portReset d.2 (s2.station p).queue.length) else s2

/-! ### CANCEL TICKET and LOAD STATIONS (R85, R166) -/

/-- CANCEL TICKET when taken (R85). -/
def takeCancelTicket (p : Port) (body : List Byte) (s : State) : State :=
  match readTicketNumber body with
  | none => s.refuse p .parse {}
  | some n =>
    match s.liveTickets.find? (fun t => t.number = n) with
    | none => s.refuse p .unknownTicket {}
    | some t =>
      (s.removeTicket t).reply p .ok
        (num2 n ++ num2 t.tab ++ num1 t.station.val ++ num1 t.lines.length ++ t.lines.flatMap (fun l => num1 l.line))

/-- A station table entry is replaced whole (R166), and a window below the SENT count takes effect (R74). -/
def State.loadStation (s : State) (e : Port × StationEntry) : State :=
  (s.setStation e.1 { s.station e.1 with
    alternate := e.2.alternate, balance := e.2.balance, window := e.2.window }).fitWindow e.1

/-- LOAD STATIONS when taken (R166). -/
def takeLoadStations (p : Port) (body : List Byte) (s : State) : State :=
  if s.save.isSome then s.refuse p .busy {}
  else match readLoadStations body with
    | none => s.refuse p .parse {}
    | some entries => (entries.foldl State.loadStation s).reply p .ok (num1 entries.length)

end Sys2Proof.Machine
end

