-- ==== Sys2Proof/Machine/Tabs.lean ====
section
/-! DEFINITION. The changes of a tab's directory state (chapter 1.2), the ends of a hold (chapter 6), the judgements of a request on
a tab (R1, R53, R100, R102), and the parts of replies that describe a tab (R17, R18). -/

namespace Sys2Proof.Machine

/-! ### Changes of state (R6 to R9) -/

/-- The change to CLOSED (R7): the hold ends without a notice and the tab joins the tail of the closed list. -/
def State.closeTab (s : State) (t : Nat) : State :=
  let s1 := s.endHold t
  { s1.setDir t { s1.dir t with state := .closed } with closedList := s1.closedList ++ [t] }

/-- A tab under audit has become FREE (R40). -/
def auditFreed (t : Nat) (a : Audit) : Audit := if a.position = t then { a with freed := true } else a

/-- The entries of every recall list that carry the tab are marked gone (R8). -/
def markGone (t : Nat) (x : Station) : Station :=
  { x with recalls := x.recalls.map (fun e => if e.ticket.tab = t then { e with gone := true } else e) }

/-- The change to FREE at the directory, its lists and the recall lists (R8). The tab's slot, if it has one, is emptied by
`State.emptySlot`. -/
def State.freeTab (s : State) (t : Nat) : State :=
  let s1 := s.endHold t
  { s1.setDir t { s1.dir t with state := .free, group := none, holder := none, paidInPart := false, slot := none } with
    closedList := s1.closedList.filter (fun u => u ≠ t)
    freeList := s1.freeList ++ [t]
    stations := s1.stations.map (markGone t)
    audit := s1.audit.map (auditFreed t) }

/-- The change to DAMAGED (R9): the holder loses the hold, the tab leaves the closed list, its cache slot becomes none. -/
def State.damageTab (s : State) (t : Nat) : State :=
  let s1 := s.endHold t
  { s1.setDir t { s1.dir t with state := .damaged, slot := none } with
    closedList := s1.closedList.filter (fun u => u ≠ t) }

/-- The tab's record, when it is in a READY slot (R106). -/
def State.readySlotOf (s : State) (t : Nat) : Option SlotId :=
  match (s.dir t).slot with
  | none => none
  | some i => if (s.slot i).state = .ready ∧ (s.slot i).tab = some t then some i else none

/-- A slot's plan is removed and the slot is marked dirty; a record with no plan is left as it is (R26, R27, R106). -/
def State.dropPlan (s : State) (i : SlotId) : State :=
  match (s.slot i).record with
  | none => s
  | some r => if r.plan = none then s else s.writeRecord i { r with plan := none }

/-- A hold ends by expiry, port reset or change of group (R106, R111): the entry and the holder become none; with paid-in-part
clear the tab becomes OPEN and a plan in a READY slot is removed; a HOLD notice is raised (R109). -/
def State.releaseHold (s : State) (p : Port) (cause : HoldCause) : State :=
  match s.hold p with
  | none => s
  | some h =>
    let s1 := s.setHold p none
    let e := s1.dir h.tab
    let s2 :=
      if e.paidInPart then s1.setDir h.tab { e with holder := none }
      else
        let s3 := s1.setDir h.tab { e with holder := none, state := .opened }
        match s3.readySlotOf h.tab with
        | none => s3
        | some i => s3.dropPlan i
    s2.raise (.hold p h.tab cause (s2.dir h.tab).state (s2.dir h.tab).paidInPart)

/-! ### Judging a request (R1, R52, R53, R100, R102) -/

/-- The requesting port is a till of the tab's group (R100). -/
def State.sameGroup (s : State) (p : Port) (t : Nat) : Bool :=
  match s.role p with
  | .till g => (s.dir t).group = some g
  | _ => false

/-- The judgement of a till request on an existing tab when it is taken (R1, R52, R115): none means that it goes to the cache. -/
def State.judgeTaken (s : State) (p : Port) (t : Nat) : Option Status :=
  if !isTab t || (s.dir t).state = .free then some .noSuchTab
  else if (s.dir t).state = .damaged then some .tabDamaged
  else if s.sameGroup p t then none
  else some .notPermitted

/-- The rows of R102's table. -/
inductive RequestRow where
  | orderOrVoid | split | cancelOrTender | resume | readTab
  deriving DecidableEq, Repr

/-- The port's hold table entry names a tab other than this one (R102). -/
def State.holdsAnother (s : State) (p : Port) (t : Nat) : Bool :=
  match s.hold p with
  | none => false
  | some h => h.tab ≠ t

/-- The rows of R102 for a TENDERING tab. -/
def State.judgeTendering (s : State) (row : RequestRow) (p : Port) (t : Nat) : Option Status :=
  match row, (s.dir t).holder with
  | .readTab, _ => none
  | .orderOrVoid, none => some .tabState
  | .resume, none => if s.holdsAnother p t then some .tabState else none
  | _, none => some .notHolder
  | row, some q =>
    if q ≠ p then some .tabHeld
    else match row with
      | .orderOrVoid => some .tabState
      | _ => none

/-- R102's table: none means that the request proceeds. FREE and DAMAGED tabs do not reach it (R102); they are answered as when a
request is taken. -/
def State.judgeState (s : State) (row : RequestRow) (p : Port) (t : Nat) : Option Status :=
  match (s.dir t).state with
  | .free => some .noSuchTab
  | .damaged => some .tabDamaged
  | .closed => if row = .readTab then none else some .tabState
  | .tendering => s.judgeTendering row p t
  | .opened =>
    match row with
    | .orderOrVoid => none
    | .split => if s.holdsAnother p t then some .tabState else none
    | .cancelOrTender => some .notHolder
    | .resume => some .tabState
    | .readTab => none

/-- The judgement of a till request at its execution: the group first (R100), then R102. -/
def State.judgeExecution (s : State) (row : RequestRow) (p : Port) (t : Nat) : Option Status :=
  if s.sameGroup p t then s.judgeState row p t else some .notPermitted

/-! ### Parts of replies -/

/-- The plan summary (R18, R157): mode, share count, shares PAID, outstanding, tenders. -/
def planSummary (r : TabRecord) : List Byte :=
  match r.plan with
  | none => num1 0 ++ num1 0 ++ num1 0 ++ money 0 ++ num1 0
  | some p =>
    num1 (modeCode p.mode) ++ num1 p.shares.length ++ num1 (p.shares.filter (fun x => x.state = .paid)).length
      ++ money (planOutstanding p) ++ num1 r.tenders.length

/-- A line as READ TAB carries it (R157). -/
def lineBytes (l : TabLine) : List Byte :=
  num1 l.number ++ num2 l.item ++ num1 l.quantity ++ money l.price ++ num1 (lineFlags l) ++ [l.modifier]
    ++ num2 (orZero l.ticket)

/-- The lines on a page of READ TAB: positions 7p+1 to 7p+7 (R17). -/
def pageLines (r : TabRecord) (page : Nat) : List TabLine := (r.lines.drop (7 * page)).take 7

/-- The fields of a READ TAB reply (R17, R157). -/
def readTabBytes (e : DirEntry) (r : TabRecord) (tab page : Nat) : List Byte :=
  num2 tab ++ num1 (tabStateCode e.state) ++ num1 (portNumber e.holder) ++ flagByte e.paidInPart ++ num1 e.live
    ++ num1 (groupNumber (some r.group)) ++ num1 r.openingTill.val ++ num1 r.lines.length ++ num1 page
    ++ (pageLines r page).flatMap lineBytes
    ++ money (amountsNet r.totals.amounts) ++ r.totals.amounts.tax.toList.flatMap money ++ money r.totals.amounts.service
    ++ money r.totals.total ++ planSummary r

/-- The nine amounts as a reply carries them (R157). -/
def amountBytes (a : Amounts) : List Byte := a.net.toList.flatMap money ++ a.tax.toList.flatMap money ++ money a.service

/-- The nine amounts of a share without components are 0 (R157). -/
def noAmounts : Amounts := zeroTotals.amounts

/-! ### LIST TABS (R16) -/

/-- A tab belongs to what a LIST TABS asks for: it is not FREE, and matches the selector and the group (R16). -/
def listsTab (selector : Option TabState) (group : Option Group) (e : DirEntry) : Bool :=
  e.state ≠ .free && (selector.isNone || selector = some e.state) && (group.isNone || group = e.group)

/-- The tabs that a LIST TABS lists (R16). -/
def State.tabsFrom (s : State) (start : Nat) (selector : Option TabState) (group : Option Group) : List (Nat × DirEntry) :=
  (s.directory.filter (fun e => start ≤ e.1 && listsTab selector group e.2)).take 16

/-- A tab as LIST TABS carries it (R157). -/
def listBytes (t : Nat) (e : DirEntry) : List Byte :=
  num2 t ++ num1 (tabStateCode e.state) ++ num1 (groupNumber e.group) ++ num1 (portNumber e.holder)
    ++ num1 (listFlags e) ++ num1 e.live

/-- The group that a LIST TABS asks for (R16): from a till, its own, by 0 or by its own number; from the uplink, any, or all by 0.
The outer none refuses the request. -/
def listGroup (role : PortRole) (g : Nat) : Option (Option Group) :=
  match role with
  | .till own => if g = 0 ∨ g = own.val + 1 then some (some own) else none
  | _ => if h : 1 ≤ g ∧ g ≤ 8 then some (some ⟨g - 1, by omega⟩) else some none

/-- LIST TABS when taken (R16). -/
def takeListTabs (p : Port) (body : List Byte) (s : State) : State :=
  match readListTabs body with
  | none => s.refuse p .parse { tab := namedTab body }
  | some (start, selector, g) =>
    match listGroup (s.role p) g with
    | none => s.refuse p .notPermitted { tab := start }
    | some group =>
      let listed := s.tabsFrom start selector group
      s.reply p .ok (num1 listed.length ++ listed.flatMap (fun e => listBytes e.1 e.2)
        ++ num2 (continuation 16 2048 (listed.map Prod.fst)))

end Sys2Proof.Machine
end

