-- ==== Sys2Proof/Machine/Orders.lean ====
section
/-! DEFINITION. The order engine (chapter 3.4, 3.5): an executing ORDER (R53 to R57) and an executing VOID (R58 to R60). -/

namespace Sys2Proof.Machine

/-! ### Line checks (R54) -/

/-- A line that has passed the line checks: its place in the request (counted from 0), and the price and class copied (R54). -/
structure PassedLine where
  index    : Nat
  item     : Nat
  quantity : Nat
  modifier : Byte
  price    : Nat
  taxClass : TaxClass
  station  : Option Port
  deriving DecidableEq, Repr

/-- What the line checks make of one line (R54). -/
inductive LineCheck where
  | passed (l : PassedLine)
  | itemUnknown
  | tabFull
  | outOfStock (remaining : Nat)
  | limit
  deriving DecidableEq, Repr

/-- What a passed line charges. -/
def PassedLine.charge (l : PassedLine) : Charge := { taxClass := l.taxClass, amount := l.quantity * l.price }

/-- The passed lines among the outcomes so far. -/
def passedLines (checks : List LineCheck) : List PassedLine :=
  checks.filterMap (fun c => match c with
    | .passed l => some l
    | _ => none)

/-- The remaining stock of a tracked item as a line sees it (R54, check 3). -/
def remainingStock (t : Tracking) (item : Nat) (passed : List PassedLine) : Nat :=
  t.stock - ((passed.filter (fun l => l.item = item)).map (fun l => l.quantity)).sum

/-- Check 3 of R54: the remaining stock, when it is less than the quantity. -/
def stockShort (i : Item) (item quantity : Nat) (passed : List PassedLine) : Option Nat :=
  match i.tracking with
  | none => none
  | some t => if remainingStock t item passed < quantity then some (remainingStock t item passed) else none

/-- The four checks of one line, in R54's order. `existing` is the tab's lines; `passed` this order's earlier passed lines. -/
def State.checkLine (s : State) (g : Group) (existing : List TabLine) (passed : List PassedLine) (index : Nat)
    (l : OrderLine) : LineCheck :=
  match s.item l.item with
  | none => .itemUnknown
  | some i =>
    if 48 ≤ existing.length + passed.length then .tabFull
    else match stockShort i l.item l.quantity passed with
      | some n => .outOfStock n
      | none =>
        let x : PassedLine :=
          { index := index, item := l.item, quantity := l.quantity, modifier := l.modifier, price := i.price,
            taxClass := i.taxClass, station := i.station }
        let charges := chargesOf existing ++ (passed.map PassedLine.charge ++ [x.charge])
        if Config.totalLimit < (totalsOf s.taxRates (s.serviceRate g) charges).total then .limit else .passed x

/-- The lines of an order are checked one at a time, in request order (R54). -/
def State.checkLines (s : State) (g : Group) (existing : List TabLine) : List PassedLine → Nat → List OrderLine → List LineCheck
  | _, _, [] => []
  | passed, index, l :: rest =>
    let c := s.checkLine g existing passed index l
    c :: s.checkLines g existing (passed ++ passedLines [c]) (index + 1) rest

/-! ### Kitchen placement (R55) -/

/-- The station a passed line goes to: its item's station, if that port is a STATION port now (R55). -/
def State.lineStation (s : State) (l : PassedLine) : Option Port :=
  match l.station with
  | none => none
  | some p => if s.isStation p then some p else none

/-- Each port of a list once, in the order of first appearance. -/
def firstAppearances : List Port → List Port
  | [] => []
  | p :: rest => p :: (firstAppearances rest).filter (fun q => q ≠ p)

/-- Cuts a list into pieces of 8, the last holding the rest; `fuel` bounds the number of pieces. -/
def inEights {α : Type} : Nat → List α → List (List α)
  | 0, _ => []
  | _ + 1, [] => []
  | fuel + 1, x :: rest => (x :: rest).take 8 :: inEights fuel ((x :: rest).drop 8)

/-- The tickets that the passing lines form: stations in the order of first appearance, 8 lines to a ticket (R55). -/
def State.formTickets (s : State) (passed : List PassedLine) : List (Port × List PassedLine) :=
  (firstAppearances (passed.filterMap s.lineStation)).flatMap (fun p =>
    let lines := passed.filter (fun l => s.lineStation l = some p)
    (inEights lines.length lines).map (fun ls => (p, ls)))

/-- A ticket that has been judged, with its place or none (R55). -/
structure JudgedTicket where
  lines : List PassedLine
  place : Option Place
  deriving DecidableEq, Repr

/-- For each ticket in turn a place is asked for; the places of earlier tickets count as taken (R55). -/
def State.judgeTickets (s : State) : List Place → List (Port × List PassedLine) → List JudgedTicket
  | _, [] => []
  | done, (p, lines) :: rest =>
    let place := s.findPlace done p
    { lines := lines, place := place } :: s.judgeTickets (done ++ place.toList) rest

/-- What the line checks and the kitchen placement decide, before anything changes (R54, R55). -/
structure OrderPlan where
  checks   : List LineCheck
  tickets  : List JudgedTicket
  /-- The accepted lines, in request order (R56). -/
  accepted : List PassedLine
  deriving DecidableEq, Repr

/-- A line's ticket found no place: it fails KITCHEN-FULL (R55). -/
def failsKitchen (tickets : List JudgedTicket) (l : PassedLine) : Bool :=
  tickets.any (fun t => t.place.isNone && t.lines.any (fun x => x.index = l.index))

/-- R54 and R55 for an order on a tab of group `g` with these lines. -/
def State.planOrder (s : State) (g : Group) (existing : List TabLine) (lines : List OrderLine) : OrderPlan :=
  let checks := s.checkLines g existing [] 0 lines
  let passed := passedLines checks
  let tickets := s.judgeTickets [] (s.formTickets passed)
  { checks := checks, tickets := tickets, accepted := passed.filter (fun l => !failsKitchen tickets l) }

/-! ### The commit (R56, R68) -/

/-- The highest line number on a tab, 0 for none (R12). -/
def highestLine (lines : List TabLine) : Nat := (lines.map (fun l => l.number)).foldl max 0

/-- The tab line number that an accepted line becomes (R12, R56). -/
def lineNumberOf (highest : Nat) (accepted : List PassedLine) (index : Nat) : Nat :=
  highest + 1 + accepted.findIdx (fun l => l.index = index)

/-- Creates the tickets that were given places, in the order they were judged; gives back the state and, ticket by ticket, the
number given and the ticket's lines (R68). -/
def createTickets (tab : Nat) (origin : Port) (rush : Bool) (number : Nat → Nat) :
    List JudgedTicket → State → State × List (Nat × List PassedLine)
  | [], s => (s, [])
  | t :: rest, s =>
    match t.place with
    | none => createTickets tab origin rush number rest s
    | some place =>
      let n := s.freshNumber
      let ticket : Ticket :=
        { number := n, original := n, tab := tab, origin := origin, station := place.target, rush := rush,
          lines := t.lines.map (fun l =>
            { item := l.item, quantity := l.quantity, modifier := l.modifier, line := number l.index }),
          revision := 0, state := .queued, started := false, everTransmitted := false }
      let r := createTickets tab origin rush number rest
        { s.placeTicket place ticket with ticketCounter := nextNumber n }
      (r.1, (n, t.lines) :: r.2)

/-- The ticket number that a line of the request got. -/
def ticketOfLine (created : List (Nat × List PassedLine)) (index : Nat) : Option Nat :=
  (created.find? (fun c => c.2.any (fun l => l.index = index))).map Prod.fst

/-- An accepted line as it is appended to the record (R12, R56). -/
def newLine (number : Nat → Nat) (created : List (Nat × List PassedLine)) (l : PassedLine) : TabLine :=
  { number := number l.index, item := l.item, quantity := l.quantity, price := l.price, taxClass := l.taxClass,
    modifier := l.modifier, state := .active, ticket := ticketOfLine created l.index }

/-- What a commit leaves and what its reply needs. -/
structure Commit where
  state   : State
  record  : TabRecord
  created : List (Nat × List PassedLine)

/-- Steps 2 to 6 of R56, for the record of the tab, in the state in which a tab-0 ORDER's tab is already open. Availability is
compared with what it was in `before`, the event's start. -/
def commitOrder (before s : State) (p : Port) (rush : Bool) (r : TabRecord) (plan : OrderPlan) : Commit :=
  let number := lineNumberOf (highestLine r.lines) plan.accepted
  let c := createTickets r.tab p rush number plan.tickets s
  let lines := r.lines ++ plan.accepted.map (newLine number c.2)
  let record := { r with lines := lines, totals := s.lineTotals r.group lines }
  let sold := plan.accepted.foldl (fun acc l => acc.mapTracking l.item (sellStock l.quantity)) c.1
  let counted := sold.raiseLive r.tab c.2.length
  { state := counted.latchItems before (plan.accepted.map (fun l => l.item)), record := record, created := c.2 }

/-! ### The reply (R57) -/

/-- One line's outcome in an ORDER's reply: outcome [1], tab line [1], ticket or remaining stock [2] (R57, R157). Where an outcome has
nothing for a field (the tab line of a line that was not accepted, the ticket or stock of ITEM-UNKNOWN, TAB-FULL, LIMIT and KITCHEN-FULL)
the field is 0: R57 and R157 do not say what it holds (DESIGN CHOICE, assumption 26). -/
def outcomeBytes (number : Nat → Nat) (tickets : List JudgedTicket) (created : List (Nat × List PassedLine)) :
    LineCheck → List Byte
  | .itemUnknown => num1 1 ++ num1 0 ++ num2 0
  | .outOfStock n => num1 2 ++ num1 0 ++ num2 n
  | .tabFull => num1 3 ++ num1 0 ++ num2 0
  | .limit => num1 4 ++ num1 0 ++ num2 0
  | .passed l =>
    if failsKitchen tickets l then num1 5 ++ num1 0 ++ num2 0
    else num1 0 ++ num1 (number l.index) ++ num2 (orZero (ticketOfLine created l.index))

/-- OK if every line of the request was accepted, and PARTIAL otherwise (R57). -/
def orderStatus (plan : OrderPlan) : Status := if plan.accepted.length = plan.checks.length then .ok else .partly

/-- The fields of an executed ORDER's reply (R57, R157). -/
def orderReply (tab highest : Nat) (plan : OrderPlan) (created : List (Nat × List PassedLine)) (total : Nat) : List Byte :=
  num2 tab ++ num1 plan.checks.length
    ++ plan.checks.flatMap (outcomeBytes (lineNumberOf highest plan.accepted) plan.tickets created)
    ++ num1 created.length ++ created.flatMap (fun c => num2 c.1) ++ money total

/-! ### An executing ORDER (R53, R56) -/

/-- An ORDER for an existing tab executes at its slot (R53 to R57). A READY slot without a record does not come about (DESIGN CHOICE,
assumption 20). -/
def performOrder (i : SlotId) (p : Port) (tab : Nat) (rush : Bool) (lines : List OrderLine) (s : State) : State :=
  match s.judgeExecution .orderOrVoid p tab with
  | some status => s.refuse p status { tab := tab }
  | none =>
    match (s.slot i).record with
    | none => s
    | some r =>
      let plan := s.planOrder r.group r.lines lines
      if plan.accepted = [] then
        s.reply p .partly (orderReply tab (highestLine r.lines) plan [] r.totals.total)
      else
        let c := commitOrder s s p rush r plan
        (c.state.writeRecord i c.record).reply p (orderStatus plan)
          (orderReply tab (highestLine r.lines) plan c.created c.record.totals.total)

/-- A new tab's record (R11). -/
def newRecord (tab : Nat) (g : Group) (p : Port) : TabRecord :=
  { tab := tab, group := g, openingTill := p, lines := [], totals := zeroTotals, plan := none, tenders := [] }

/-- The new tab is taken from the head of the free list and opened in the till's group, with this slot (R3). -/
def State.openTab (s : State) (i : SlotId) (tab : Nat) (rest : List Nat) (g : Group) : State :=
  { s.setDir tab { state := .opened, group := some g, holder := none, paidInPart := false, live := 0, slot := some i } with
    freeList := rest }

/-- A tab-0 ORDER opens no tab: its slot becomes EMPTY (R24, R28). -/
def State.clearSlot (s : State) (i : SlotId) : State := s.setSlot i CacheSlot.cleared

/-- An ORDER for tab 0 executes in its slot, which holds no tab (R24, R54 to R57). With no line accepted there is no tab, and the total in
the PARTIAL reply is 0: R57 says only that it is the tab's total (DESIGN CHOICE, assumption 27). -/
def performNewOrder (i : SlotId) (p : Port) (rush : Bool) (lines : List OrderLine) (s : State) : State :=
  match (s.role p).group with
  | none => (s.clearSlot i).refuse p .notPermitted {}
  | some g =>
    let plan := s.planOrder g [] lines
    if plan.accepted = [] then (s.clearSlot i).reply p .partly (orderReply 0 0 plan [] 0)
    else match s.freeList with
      | [] => (s.clearSlot i).refuse p .tabsFull {}
      | tab :: rest =>
        let c := commitOrder s (s.openTab i tab rest g) p rush (newRecord tab g p) plan
        (c.state.setSlot i
          { state := .ready, tab := some tab, incoming := .none, record := some c.record, dirty := true, waits := [] }).reply p
          (orderStatus plan) (orderReply tab 0 plan c.created c.record.totals.total)

/-! ### An executing VOID (R58 to R60) -/

/-- What becomes of a voided line (R59). -/
inductive VoidFate where
  /-- VOID, no ticket to change. -/
  | void
  /-- VOID, the line is struck from this ticket. -/
  | strike (t : Ticket)
  /-- WASTE. -/
  | waste
  deriving DecidableEq, Repr

/-- The fate of a line of a tab (R59, R82). -/
def State.voidFate (s : State) (tab : Nat) (l : TabLine) : VoidFate :=
  match l.ticket with
  | none => .void
  | some n =>
    match s.findLineTicket tab l.number n with
    | none => .waste
    | some t => if t.started then .waste else .strike t

/-- The ticket number that a line's ticket field holds after a VOID has looked it up (R82): the ticket's present number, where one
is found. -/
def State.foundTicket (s : State) (tab : Nat) (l : TabLine) : Option Nat :=
  match l.ticket with
  | none => none
  | some n =>
    match s.findLineTicket tab l.number n with
    | none => some n
    | some t => some t.number

/-- A VOID returns stock only to an item that is defined and tracked now with a sold count of at least the quantity (R59). -/
def State.returnsStock (s : State) (item quantity : Nat) : Bool :=
  match (s.item item).bind Item.tracking with
  | none => false
  | some t => quantity ≤ t.sold

/-- A fate that makes the line VOID. -/
def VoidFate.isVoid : VoidFate → Bool
  | .waste => false
  | _ => true

/-- The kitchen unit's part of a VOID (R59, R83, R84). -/
def State.kitchenVoid (s : State) (line : Nat) : VoidFate → State
  | .strike t => s.strikeLine t line
  | _ => s

/-- A tab's lines with line `n` in another state and its ticket field rewritten (R59, R82). -/
def setLine (lines : List TabLine) (n : Nat) (state : LineState) (ticket : Option Nat) : List TabLine :=
  lines.map (fun l => if l.number = n then { l with state := state, ticket := ticket } else l)

/-- The totals that a tab would have without a line (R60). -/
def State.totalsWithout (s : State) (r : TabRecord) (n : Nat) : Totals :=
  s.lineTotals r.group (r.lines.filter (fun l => l.number ≠ n))

/-- The changes of R59 and the reply of R60, for an ACTIVE line whose removal keeps the total in range. -/
def voidLine (i : SlotId) (p : Port) (r : TabRecord) (l : TabLine) (s : State) : State :=
  let fate := s.voidFate r.tab l
  let state : LineState := if fate.isVoid then .void else .waste
  let returned := fate.isVoid && s.returnsStock l.item l.quantity
  let s1 := s.kitchenVoid l.number fate
  let s2 := if returned then s1.mapTracking l.item (returnStock l.quantity) else s1
  let lines := setLine r.lines l.number state (s.foundTicket r.tab l)
  let totals := s.lineTotals r.group lines
  ((s2.latchItems s [l.item]).writeRecord i { r with lines := lines, totals := totals }).reply p .ok
    (num2 r.tab ++ num1 l.number ++ num1 (lineStateCode state) ++ flagByte returned ++ money totals.total)

/-- A VOID executes at its tab's slot (R58 to R60). The total is judged before the kitchen looks for a ticket (DEDUCED, assumption 21). -/
def performVoid (i : SlotId) (p : Port) (tab line : Nat) (s : State) : State :=
  match s.judgeExecution .orderOrVoid p tab with
  | some status => s.refuse p status { tab := tab }
  | none =>
    match (s.slot i).record with
    | none => s
    | some r =>
      match r.lines.find? (fun l => l.number = line && l.state = .active) with
      | none => s.refuse p .tabState { tab := tab }
      | some l =>
        if Config.totalLimit < (s.totalsWithout r line).total then s.refuse p .tabState { tab := tab }
        else voidLine i p r l s

end Sys2Proof.Machine
end

