-- ==== Sys2Proof/Machine/Payments.lean ====
section
/-! DEFINITION. The split engine's SPLIT and CANCEL SPLIT (R122 to R126), the tender unit's TENDER (R131 to R137), RESUME (R108),
READ TAB (R17), COLLECT (R139, R140) and DISCARD TAB (R15), each as it executes at a READY slot. -/

namespace Sys2Proof.Machine

/-! ### SPLIT (R122 to R125) -/

/-- The tab number that a refused SPLIT's reply names, with the figures of the refusal (R157). -/
def splitDetail (tab index figure : Nat) : Detail := { tab := tab, index := index, figure := figure }

/-- The reply to a SPLIT that was carried out (R123): tab, state, mode, and each share's due and state. -/
def splitReply (tab : Nat) (state : TabState) (plan : SplitPlan) : List Byte :=
  num2 tab ++ num1 (tabStateCode state) ++ num1 (modeCode plan.mode) ++ num1 plan.shares.length
    ++ plan.shares.flatMap (fun x => money x.due ++ num1 (shareStateCode x.state))

/-- A new split's plan is written and the tab goes to TENDERING under the till's hold (R103, R123), and on to CLOSED when every
share is PAID (R125). -/
def writeNewSplit (i : SlotId) (p : Port) (tab : Nat) (r : TabRecord) (plan : SplitPlan) (s : State) : State :=
  let s1 := (s.writeRecord i { r with plan := some plan }).takeHold p tab
  let s2 := s1.setDir tab { s1.dir tab with state := .tendering }
  if planAllPaid plan then (s2.closeTab tab).reply p .ok (splitReply tab .closed plan)
  else s2.reply p .ok (splitReply tab .tendering plan)

/-- A replacement split's plan takes the place of the old one, and the deadline is restarted (R104, R124). -/
def replaceSplit (i : SlotId) (p : Port) (tab : Nat) (r : TabRecord) (plan : SplitPlan) (s : State) : State :=
  ((s.writeRecord i { r with plan := some plan }).restartHold p).reply p .ok (splitReply tab .tendering plan)

/-- A SPLIT that has passed step 1 of R122 executes: steps 2 to 5. -/
def performSplit (i : SlotId) (p : Port) (tab : Nat) (spec : SplitSpec) (s : State) : State :=
  match s.judgeExecution .split p tab with
  | some status => s.refuse p status { tab := tab }
  | none =>
    match (s.slot i).record with
    | none => s
    | some r =>
      if (s.dir tab).state = .tendering then
        if (s.dir tab).paidInPart then (s.restartHold p).refuse p .paidInPart { tab := tab }
        else match makePlan spec r with
          | .refused status index figure => (s.restartHold p).refuse p status (splitDetail tab index figure)
          | .plan plan => replaceSplit i p tab r plan s
      else match makePlan spec r with
        | .refused status index figure => s.refuse p status (splitDetail tab index figure)
        | .plan plan => writeNewSplit i p tab r plan s

/-! ### CANCEL SPLIT (R126) -/

/-- A CANCEL SPLIT executes (R126). -/
def performCancelSplit (i : SlotId) (p : Port) (tab : Nat) (s : State) : State :=
  match s.judgeExecution .cancelOrTender p tab with
  | some status => s.refuse p status { tab := tab }
  | none =>
    if (s.dir tab).paidInPart then s.refuse p .paidInPart { tab := tab }
    else match (s.slot i).record with
      | none => s
      | some r =>
        let s1 := (s.writeRecord i { r with plan := none }).endHold tab
        (s1.setDir tab { s1.dir tab with state := .opened }).reply p .ok
          (num2 tab ++ num1 (tabStateCode .opened) ++ money r.totals.total)

/-! ### TENDER (R133 to R137) -/

/-- What a tender credits its share (R134): for CARD what is outstanding, which R133 makes it equal to, and for CASH and VOUCHER
the smaller of the amount and what is outstanding (DEDUCED, assumption 23, for a CARD tender not yet known to be equal). -/
def creditOf (m : Method) (amount outstanding : Nat) : Nat :=
  match m with
  | .card => outstanding
  | _ => min amount outstanding

/-- A share after a credit (R131, R134). -/
def creditShare (credit : Nat) (x : Share) : Share :=
  { x with credited := x.credited + credit, state := if x.credited + credit = x.due then .paid else x.state }

/-- The OPEN shares of a plan. -/
def openShares (plan : SplitPlan) : Nat := (plan.shares.filter (fun x => x.state = .unpaid)).length

/-- Free entries of the tender list (R135). -/
def freeEntries (r : TabRecord) : Nat := 32 - r.tenders.length

/-- The tender list reserve (R135): a tender that pays its share needs a free entry; any other must leave as many free entries as
there are OPEN shares. -/
def reserveHolds (r : TabRecord) (plan : SplitPlan) (x : Share) (m : Method) (amount : Nat) : Bool :=
  if creditOf m amount (shareOutstanding x) = shareOutstanding x then decide (1 ≤ freeEntries r)
  else decide (openShares plan + 1 ≤ freeEntries r)

/-- What R133's checks make of a TENDER. -/
inductive TenderJudgement where
  | refused (status : Status) (detail : Detail)
  | passes (x : Share)
  deriving DecidableEq, Repr

/-- R133's checks against the plan in the working record, in order. -/
def judgeTender (f : TenderFields) (r : TabRecord) (plan : SplitPlan) : TenderJudgement :=
  match plan.shares[f.share - 1]? with
  | none => .refused .parse { tab := f.tab, index := f.share, figure := plan.shares.length }
  | some x =>
    if x.state = .paid then .refused .sharePaid { tab := f.tab, index := f.share }
    else if !reserveHolds r plan x f.method f.amount then
      .refused .tabState { tab := f.tab, index := f.share, figure := freeEntries r, second := openShares plan }
    else if f.method = .card ∧ f.amount ≠ shareOutstanding x then
      .refused .amountMismatch { tab := f.tab, index := f.share, figure := shareOutstanding x }
    else .passes x

/-- The entry that a recorded tender appends (R14, R134). -/
def tenderEntry (f : TenderFields) (x : Share) : TenderEntry :=
  let credit := creditOf f.method f.amount (shareOutstanding x)
  { share := f.share, method := f.method, offered := f.amount, credited := credit,
    change := if f.method = .cash then some (f.amount - credit) else none,
    forfeit := if f.method = .voucher then some (f.amount - credit) else none }

/-- The record after a recorded tender (R134). -/
def tenderedRecord (f : TenderFields) (r : TabRecord) (plan : SplitPlan) (x : Share) : TabRecord :=
  let credit := creditOf f.method f.amount (shareOutstanding x)
  { r with
    plan := some { plan with shares := plan.shares.set (f.share - 1) (creditShare credit x) }
    tenders := r.tenders ++ [tenderEntry f x] }

/-- The reply to a recorded tender (R137, R157). For CARD both change and forfeit are absent (R134), and the field that carries one of
them is then 0: R137 and R157 do not say what it holds (DESIGN CHOICE, assumption 29). -/
def tenderReply (f : TenderFields) (e : TenderEntry) (x : Share) (r : TabRecord) (plan : SplitPlan) (state : TabState) : List Byte :=
  num2 f.tab ++ num1 f.share ++ num1 (methodCode f.method) ++ money f.amount ++ money e.credited
    ++ money (orZero (e.change.or e.forfeit)) ++ money x.due ++ money x.credited ++ money (shareOutstanding x)
    ++ num1 (shareStateCode x.state) ++ flagByte x.components.isSome ++ amountBytes (x.components.getD noAmounts)
    ++ money (planOutstanding plan) ++ num1 r.tenders.length ++ num1 (tabStateCode state)

/-- A tender that passes R133 is recorded (R134), and closes the tab when every share is then PAID (R136). -/
def recordTender (i : SlotId) (p : Port) (f : TenderFields) (r : TabRecord) (plan : SplitPlan) (x : Share) (s : State) : State :=
  let credited := creditShare (creditOf f.method f.amount (shareOutstanding x)) x
  let plan1 : SplitPlan := { plan with shares := plan.shares.set (f.share - 1) credited }
  let r1 := tenderedRecord f r plan x
  let s1 := s.writeRecord i r1
  let s2 := s1.setDir f.tab { s1.dir f.tab with paidInPart := true }
  let state : TabState := if planAllPaid plan1 then .closed else .tendering
  (if planAllPaid plan1 then s2.closeTab f.tab else s2).reply p .ok
    (tenderReply f (tenderEntry f x) credited r1 plan1 state)

/-- A TENDER executes (R133): the deadline is restarted whatever follows (R104). -/
def performTender (i : SlotId) (p : Port) (f : TenderFields) (s : State) : State :=
  match s.judgeExecution .cancelOrTender p f.tab with
  | some status => s.refuse p status { tab := f.tab, index := f.share }
  | none =>
    let s1 := s.restartHold p
    match (s.slot i).record with
    | none => s1
    | some r =>
      match r.plan with
      | none => s1
      | some plan =>
        match judgeTender f r plan with
        | .refused status detail => s1.refuse p status detail
        | .passes x => recordTender i p f r plan x s1

/-! ### RESUME (R108) -/

/-- A RESUME executes (R108): the till takes the hold of an orphaned tender, or its own deadline is restarted. -/
def performResume (i : SlotId) (p : Port) (tab : Nat) (s : State) : State :=
  match s.judgeExecution .resume p tab with
  | some status => s.refuse p status { tab := tab }
  | none =>
    match (s.slot i).record with
    | none => s
    | some r =>
      let s1 := if (s.dir tab).holder = none then s.takeHold p tab else s.restartHold p
      s1.reply p .ok (num2 tab ++ planSummary r)

/-! ### READ TAB (R17) -/

/-- The judgement of a READ TAB at execution: a till's group must match; the uplink has none to match (R17, R100). -/
def State.judgeReadTab (s : State) (p : Port) (tab : Nat) : Option Status :=
  if s.role p = .uplink then none else s.judgeExecution .readTab p tab

/-- A READ TAB executes (R17): it changes nothing. -/
def performReadTab (i : SlotId) (p : Port) (tab page : Nat) (s : State) : State :=
  match s.judgeReadTab p tab with
  | some status => s.refuse p status { tab := tab }
  | none =>
    match (s.slot i).record with
    | none => s
    | some r => s.reply p .ok (readTabBytes (s.dir tab) r tab page)

/-! ### Emptying a slot, DISCARD TAB and COLLECT (R8, R15, R28, R139, R140) -/

/-- The request that a waiter's refusal names (R157): its tab, and a TENDER's share index. COLLECT names no tab
(DEDUCED, assumption 22). -/
def requestDetail : TabRequest → Detail
  | .order tab _ _ => { tab := tab }
  | .void tab _ => { tab := tab }
  | .readTab tab _ => { tab := tab }
  | .split tab _ => { tab := tab }
  | .cancelSplit tab => { tab := tab }
  | .tender tab share _ _ => { tab := tab, index := share }
  | .resume tab => { tab := tab }
  | .collect _ => {}
  | .discardTab tab => { tab := tab }

/-- A request is answered with a status before it executes. -/
def State.refuseWaiter (status : Status) (s : State) (w : Waiter) : State := s.refuse w.port status (requestDetail w.request)

/-- A slot's waiters are answered with a status, in the order in which they joined (R28, R33, R35). -/
def State.refuseWaiters (s : State) (i : SlotId) (status : Status) : State :=
  (s.slot i).waits.foldl (State.refuseWaiter status) s

/-- A slot becomes EMPTY, its waiters answered with a status (R28). -/
def State.emptySlot (s : State) (i : SlotId) (status : Status) : State :=
  (s.refuseWaiters i status).setSlot i CacheSlot.cleared

/-- The tab of a slot becomes FREE, its slot EMPTY without a write-back, and those behind are answered NO-SUCH-TAB (R8). -/
def State.freeAtSlot (s : State) (i : SlotId) (tab : Nat) : State := (s.freeTab tab).emptySlot i .noSuchTab

/-- A DISCARD TAB executes at an OPEN tab's slot (R15). -/
def discardOpen (i : SlotId) (p : Port) (tab : Nat) (s : State) : State :=
  match (s.slot i).record with
  | none => s
  | some r =>
    if r.lines.any (fun l => l.state = .active) then s.refuse p .tabState { tab := tab }
    else if 0 < (s.dir tab).live then s.refuse p .kitchenOpen { tab := tab }
    else (s.reply p .ok (num2 tab)).freeAtSlot i tab

/-- DISCARD TAB on a DAMAGED tab, decided at the directory alone (R15). -/
def discardDamaged (p : Port) (tab : Nat) (s : State) : State :=
  if 0 < (s.dir tab).live then s.refuse p .kitchenOpen { tab := tab }
  else (s.freeTab tab).reply p .ok (num2 tab)

/-- A DISCARD TAB executes (R15): the directory state is looked at again. -/
def performDiscard (i : SlotId) (p : Port) (tab : Nat) (s : State) : State :=
  match (s.dir tab).state with
  | .free => s.refuse p .noSuchTab { tab := tab }
  | .tendering | .closed => s.refuse p .tabState { tab := tab }
  | .damaged => discardDamaged p tab s
  | .opened => discardOpen i p tab s

/-- The sum of a field over the tender entries of a method (R140). -/
def sumOver (r : TabRecord) (m : Method) (f : TenderEntry → Nat) : Nat :=
  ((r.tenders.filter (fun e => e.method = m)).map f).sum

/-- The fields of a collected tab's summary (R140, R157). -/
def summaryBytes (r : TabRecord) : List Byte :=
  num2 r.tab ++ num1 (r.group.val + 1) ++ num1 r.openingTill.val ++ amountBytes r.totals.amounts ++ money r.totals.total
    ++ num1 ((r.plan.map (fun p => modeCode p.mode)).getD 0) ++ num1 ((r.plan.map (fun p => p.shares.length)).getD 0)
    ++ [Method.cash, .card, .voucher].flatMap (fun m => money (sumOver r m TenderEntry.offered))
    ++ [Method.cash, .card, .voucher].flatMap (fun m => money (sumOver r m TenderEntry.credited))
    ++ money (sumOver r .cash (fun e => orZero e.change)) ++ money (sumOver r .voucher (fun e => orZero e.forfeit))
    ++ num1 r.tenders.length ++ num1 (r.lines.filter (fun l => l.state = .waste)).length

/-- A COLLECT executes at the chosen tab's slot (R139, R140). -/
def performCollect (i : SlotId) (p : Port) (tab : Nat) (s : State) : State :=
  match (s.dir tab).state with
  | .closed =>
    if 0 < (s.dir tab).live then s.refuse p .kitchenOpen { tab := tab, figure := (s.dir tab).live }
    else match (s.slot i).record with
      | none => s
      | some r => (s.reply p .ok (summaryBytes r)).freeAtSlot i tab
  | .damaged => s.refuse p .tabDamaged {}
  | .free => s.refuse p .noSuchTab {}
  | _ => s.refuse p .tabState {}

end Sys2Proof.Machine
end

