-- ==== Sys2Proof/Machine/Cache.lean ====
section
/-! DEFINITION. The tab cache (chapter 2): executing the head of a wait list (R25, R128), finding a slot for a request (R21 to R24),
and the requests on tabs as they are taken (R15, R17, R52, R58, R108, R115, R126, R132, R138). -/

namespace Sys2Proof.Machine

/-! ### Executing at a slot (R25, R26, R128) -/

/-- The request at the head of a wait list has left it. -/
def State.popWaiter (s : State) (i : SlotId) : State := s.setSlot i { s.slot i with waits := (s.slot i).waits.tail }

/-- A request executes at its slot, which it has made most recent (R26); a SPLIT after step 1 of R122. -/
def perform (i : SlotId) (p : Port) (request : TabRequest) (s : State) : State :=
  match request with
  | .order tab rush lines => if tab = 0 then performNewOrder i p rush lines s else performOrder i p tab rush lines s
  | .void tab line => performVoid i p tab line s
  | .readTab tab page => performReadTab i p tab page s
  | .split tab spec => performSplit i p tab spec s
  | .cancelSplit tab => performCancelSplit i p tab s
  | .tender tab share method amount => performTender i p { tab := tab, share := share, method := method, amount := amount } s
  | .resume tab => performResume i p tab s
  | .collect tab => performCollect i p tab s
  | .discardTab tab => performDiscard i p tab s

/-- The head of a wait list leaves it and executes (R25, R26). -/
def State.runHead (s : State) (i : SlotId) (w : Waiter) : State :=
  perform i w.port w.request ((s.popWaiter i).touch i)

/-- The head of a wait list leaves it without executing: a SPLIT answered at step 1 of R122 (R128). -/
def State.turnAway (s : State) (i : SlotId) (w : Waiter) (status : Status) : State :=
  (s.popWaiter i).refuseWaiter status w

/-- A SPLIT comes to step 1 of R122 at the head of its slot's wait list (R128). -/
def State.splitGate (s : State) (i : SlotId) (w : Waiter) : State :=
  match s.check with
  | .passed => s.runHead i w
  | .failed => s.turnAway i w .checkFailed
  | .notRun => { s with check := .running .split, engineWait := s.engineWait ++ [w.port] }
  | .running _ =>
    if s.engineWait.length < 4 then { s with engineWait := s.engineWait ++ [w.port] } else s.turnAway i w .busy

/-- A request is a SPLIT. -/
def TabRequest.isSplit : TabRequest → Bool
  | .split _ _ => true
  | _ => false

/-- The request at the head of a READY slot's wait list executes, unless the split engine keeps it there (R25, R128). -/
def State.executeHead (s : State) (i : SlotId) : State :=
  if (s.slot i).state ≠ .ready then s
  else match (s.slot i).waits with
    | [] => s
    | w :: _ =>
      if w.port ∈ s.engineWait then s
      else if w.request.isSplit then s.splitGate i w
      else s.runHead i w

/-! ### Finding a slot (R21 to R24) -/

/-- The victim R22 chooses: the lowest EMPTY slot, or else the least recent READY slot with an empty wait list. -/
def State.victim (s : State) : Option SlotId :=
  (allSlots.find? (fun i => (s.slot i).state = .empty)).or
    (s.recency.find? (fun i => (s.slot i).state = .ready && (s.slot i).waits.isEmpty))

/-- A tab's directory cache slot field changes. -/
def State.setCached (s : State) (t : Nat) (i : Option SlotId) : State := s.setDir t { s.dir t with slot := i }

/-- The tab of a slot loses the slot (R23, R34). -/
def State.uncache (s : State) (i : SlotId) : State :=
  match (s.slot i).tab with
  | none => s
  | some t => s.setCached t none

/-- An operation enters the memory operation queue (R29). -/
def State.enqueueOp (s : State) (op : MemOp) : State := { s with memQueue := s.memQueue ++ [op] }

/-- A slot starts to fetch a tab for these waiters (R23, R34). -/
def State.startFetch (s : State) (i : SlotId) (t : Nat) (waits : List Waiter) : State :=
  (s.setSlot i { state := .fetching, tab := some t, incoming := .none, record := none, dirty := false, waits := waits }).enqueueOp
    (.fetch i)

/-- A slot starts to write its record back, to make room for what comes in (R23, R24) or for FLUSH TABS (R36). -/
def State.startWrite (s : State) (i : SlotId) (incoming : Incoming) (waits : List Waiter) : State :=
  (s.setSlot i { s.slot i with state := .writing, incoming := incoming, waits := waits }).enqueueOp (.writeBack i)

/-- The victim must be written back before it is used (R23, R24). -/
def State.victimDirty (s : State) (i : SlotId) : Bool := (s.slot i).state = .ready && (s.slot i).dirty

/-- A victim is claimed for a tab and made ready to fetch it; the request is the first of its wait list (R22, R23). -/
def State.claim (s : State) (i : SlotId) (t : Nat) (w : Waiter) : State :=
  if s.victimDirty i then (s.startWrite i (.tab t) [w]).setCached t (some i)
  else ((s.uncache i).setCached t (some i)).startFetch i t [w]

/-- A request joins a wait list, or is answered BUSY when 4 wait (R21). -/
def State.joinWaits (s : State) (i : SlotId) (w : Waiter) : State :=
  if (s.slot i).waits.length < 4 then s.setSlot i { s.slot i with waits := (s.slot i).waits ++ [w] }
  else s.refuseWaiter .busy w

/-- R21 for a request whose tab is the tab of this slot. -/
def State.atOwnSlot (s : State) (i : SlotId) (w : Waiter) : State :=
  match (s.slot i).state with
  | .ready =>
    if (s.slot i).waits = [] then (s.setSlot i { s.slot i with waits := [w] }).executeHead i else s.joinWaits i w
  | .fetching => s.joinWaits i w
  | .writing => if (s.slot i).incoming = .none then s.joinWaits i w else s.refuseWaiter .tabsBusy w
  | .empty => s.refuseWaiter .tabsBusy w

/-- A request for a tab reaches the cache (R21, R22). -/
def State.cacheRequest (s : State) (t : Nat) (w : Waiter) : State :=
  match (s.dir t).slot with
  | some i =>
    if (s.slot i).tab = some t then s.atOwnSlot i w
    else if (s.slot i).incoming = .tab t then s.joinWaits i w
    else s.refuseWaiter .tabsBusy w
  | none =>
    match s.victim with
    | none => s.refuseWaiter .tabsBusy w
    | some i => s.claim i t w

/-- An ORDER for tab 0 executes in a slot that it has cleared and made most recent (R24). -/
def State.runNewOrder (s : State) (i : SlotId) (w : Waiter) : State :=
  perform i w.port w.request ((s.setSlot i CacheSlot.cleared).touch i)

/-- An ORDER for tab 0 asks the cache for a slot (R24). -/
def State.cacheNewOrder (s : State) (w : Waiter) : State :=
  if s.freeList = [] then s.refuseWaiter .tabsFull w
  else match s.victim with
    | none => s.refuseWaiter .tabsBusy w
    | some i =>
      if s.victimDirty i then s.startWrite i .new [w] else (s.uncache i).runNewOrder i w

/-! ### Requests on tabs, when taken -/

/-- A till request on an existing tab is judged (R1) and goes to the cache. -/
def State.toCache (s : State) (p : Port) (t : Nat) (request : TabRequest) : State :=
  match s.judgeTaken p t with
  | some status => s.refuse p status (requestDetail request)
  | none => s.cacheRequest t { port := p, request := request }

/-- ORDER when taken (R52). -/
def takeOrder (p : Port) (body : List Byte) (s : State) : State :=
  match readOrder body with
  | none => s.refuse p .parse { tab := namedTab body }
  | some (tab, rush, lines) =>
    if tab = 0 then s.cacheNewOrder { port := p, request := .order 0 rush lines }
    else s.toCache p tab (.order tab rush lines)

/-- VOID when taken (R58). -/
def takeVoid (p : Port) (body : List Byte) (s : State) : State :=
  match readVoid body with
  | none => s.refuse p .parse { tab := namedTab body }
  | some (tab, line) => s.toCache p tab (.void tab line)

/-- The judgement of a READ TAB when taken (R17): a till's group is compared before DAMAGED is looked at. -/
def State.judgeReadTaken (s : State) (p : Port) (t : Nat) : Option Status :=
  if !isTab t || (s.dir t).state = .free then some .noSuchTab
  else if (s.role p).isTill && !s.sameGroup p t then some .notPermitted
  else if (s.dir t).state = .damaged then some .tabDamaged
  else none

/-- READ TAB when taken (R17). -/
def takeReadTab (p : Port) (body : List Byte) (s : State) : State :=
  match readReadTab body with
  | none => s.refuse p .parse { tab := namedTab body }
  | some (tab, page) =>
    match s.judgeReadTaken p tab with
    | some status => s.refuse p status { tab := tab }
    | none => s.cacheRequest tab { port := p, request := .readTab tab page }

/-- SPLIT when taken (R115). -/
def takeSplit (p : Port) (body : List Byte) (s : State) : State :=
  match readSplit body with
  | none => s.refuse p .parse { tab := namedTab body }
  | some (tab, spec) => s.toCache p tab (.split tab spec)

/-- CANCEL SPLIT when taken (R126). -/
def takeCancelSplit (p : Port) (body : List Byte) (s : State) : State :=
  match readNumber body with
  | none => s.refuse p .parse { tab := namedTab body }
  | some tab => s.toCache p tab (.cancelSplit tab)

/-- TENDER when taken (R132). -/
def takeTender (p : Port) (body : List Byte) (s : State) : State :=
  match readTender body with
  | none => s.refuse p .parse { tab := namedTab body, index := namedShare body }
  | some f => s.toCache p f.tab (.tender f.tab f.share f.method f.amount)

/-- RESUME when taken (R108). -/
def takeResume (p : Port) (body : List Byte) (s : State) : State :=
  match readNumber body with
  | none => s.refuse p .parse { tab := namedTab body }
  | some tab => s.toCache p tab (.resume tab)

/-- DISCARD TAB when taken (R15). -/
def takeDiscardTab (p : Port) (body : List Byte) (s : State) : State :=
  match readNumber body with
  | none => s.refuse p .parse { tab := namedTab body }
  | some tab =>
    if isTab tab then
      match (s.dir tab).state with
      | .free => s.refuse p .noSuchTab { tab := tab }
      | .tendering | .closed => s.refuse p .tabState { tab := tab }
      | .damaged => discardDamaged p tab s
      | .opened => s.cacheRequest tab { port := p, request := .discardTab tab }
    else s.refuse p .noSuchTab { tab := tab }

/-- COLLECT when taken (R138): the first tab of the closed list with no live tickets is chosen. -/
def takeCollect (p : Port) (body : List Byte) (s : State) : State :=
  match emptyBody body with
  | none => s.refuse p .parse {}
  | some _ =>
    match s.closedList.find? (fun t => (s.dir t).live = 0) with
    | none => s.refuse p .empty { figure := s.closedList.length }
    | some t => s.cacheRequest t { port := p, request := .collect t }

end Sys2Proof.Machine
end

