-- ==== Sys2Proof/Machine/Memory.lean ====
section
/-! DEFINITION. The tab memory controller (chapter 2.4 to 2.6): starting, completing and abandoning its operations, FLUSH TABS and
the audit walk. R27, R29 to R41. -/

namespace Sys2Proof.Machine

/-! ### Tab memory -/

/-- Every field of a record as the check word covers it, in R31's order: the tab number, the group, the opening till, the lines, the totals,
the plan and the tenders. How each part stands in bytes is free (assumption 4). -/
def recordBytes (r : TabRecord) : List Byte :=
  Config.tabBytes r.tab ++ Config.groupBytes r.group ++ Config.openingTillBytes r.openingTill ++ Config.linesBytes r.lines
    ++ Config.totalsBytes r.totals ++ Config.planBytes r.plan ++ Config.tendersBytes r.tenders

/-- The check word of a record: the CRC-16 of R154 over every field (R14, R31). -/
def recordCheck (r : TabRecord) : BitVec 16 := crc16 (recordBytes r)

/-- A record as a write-back writes it: with a check word computed afresh (R29, R31). -/
def withCheck (r : TabRecord) : StoredRecord := { record := r, check := recordCheck r }

/-- What a completed read of a tab's record gives (R31): what the memory port delivered, or the record last written there. A tab
number at which nothing was written gives no record that passes (DESIGN CHOICE, assumption 4). -/
def State.readMemory (s : State) (t : Nat) : MemRead → Option StoredRecord
  | .asWritten => tableFind t s.tabMemory
  | .delivers cell => some cell

/-- A record read passes (R31): the CRC computed over it is the check word read with it, and its tab number is the one asked for. -/
def passes (t : Nat) : Option StoredRecord → Option TabRecord
  | none => none
  | some c => if c.check = recordCheck c.record ∧ c.record.tab = t then some c.record else none

/-- Tab memory holds this at a tab number. -/
def State.store (s : State) (t : Nat) (cell : StoredRecord) : State := { s with tabMemory := tablePut t cell s.tabMemory }

/-- The running operation has ended: the controller is free (R29). -/
def State.freeController (s : State) : State := { s with memRunning := none }

/-- Whenever a slot becomes READY holding a tab, a plan that the directory no longer allows is removed (R27). -/
def State.comparePlan (s : State) (i : SlotId) : State :=
  match (s.slot i).tab with
  | none => s
  | some t => if (s.dir t).state = .opened then s.dropPlan i else s

/-- A slot becomes READY with what it holds: R27 is applied and the request at its head executes (R25); those behind
it execute by WAITER_EXECUTES (DEDUCED, assumption 13). -/
def State.becomeReady (s : State) (i : SlotId) : State :=
  ((s.setSlot i { s.slot i with state := .ready, incoming := .none }).comparePlan i).executeHead i

/-! ### FLUSH TABS (R36, R37) -/

/-- The slots that a FLUSH taken now writes: READY and dirty, ascending (R36). -/
def State.flushSlots (s : State) : List SlotId := allSlots.filter s.victimDirty

/-- The reply to a FLUSH whose write-backs have all ended (R37). The uplink's request slot holds the FLUSH. -/
def State.flushReply (s : State) (f : Flush) : State :=
  match f.firstFault with
  | none => s.reply 0 .ok (num1 f.written)
  | some t => s.refuse 0 .tabMemoryFault { tab := t, figure := f.written }

/-- A FLUSH write-back has ended: it is counted, and the reply is sent with the last (R37). -/
def State.countFlush (s : State) (i : SlotId) (fault : Option Nat) : State :=
  match s.flush with
  | none => s
  | some f =>
    if i ∈ f.remaining then
      let g : Flush :=
        { remaining := f.remaining.erase i, written := if fault.isNone then f.written + 1 else f.written,
          firstFault := f.firstFault.or fault }
      if g.remaining = [] then { s with flush := none }.flushReply g else { s with flush := some g }
    else s

/-- FLUSH TABS when taken (R36): every READY and dirty slot becomes WRITING, and the reply comes at once if there is none. -/
def takeFlushTabs (p : Port) (body : List Byte) (s : State) : State :=
  match emptyBody body with
  | none => s.refuse p .parse {}
  | some _ =>
    let written := s.flushSlots
    if written = [] then s.reply p .ok (num1 0)
    else { written.foldl (fun acc i => acc.startWrite i .none (acc.slot i).waits) s with
      flush := some { remaining := written, written := 0, firstFault := none } }

/-! ### Operations (R29, R30) -/

/-- The free controller starts the oldest waiting slot operation, or else the waiting audit read, with its time limit (R29, R30). -/
def State.startOperation (s : State) : State :=
  match s.memRunning, s.memQueue, s.auditQueued with
  | some _, _, _ => s
  | none, op :: rest, _ =>
    { s with memRunning := some { op := op, deadline := s.now + Config.memoryLimit }, memQueue := rest }
  | none, [], some t =>
    { s with
      memRunning := some { op := .auditRead t, deadline := s.now + Config.memoryLimit }, auditQueued := none }
  | none, [], none => s

/-! ### Fetches (R32, R33) -/

/-- A fetch of tab `t` into slot `i` completes (R32). -/
def State.finishFetch (s : State) (i : SlotId) (t : Nat) (read : MemRead) : State :=
  match passes t (s.readMemory t read) with
  | some r => (s.setSlot i { s.slot i with record := some r, dirty := false }).becomeReady i
  | none => ((s.damageTab t).emptySlot i .tabDamaged).raise (.tab t .damaged)

/-- A fetch of tab `t` into slot `i` is abandoned (R33). -/
def State.abandonFetch (s : State) (i : SlotId) (t : Nat) : State :=
  ((s.setCached t none).emptySlot i .tabMemoryFault).raise (.tab t .fetchAbandoned)

/-! ### Write-backs (R34, R35) -/

/-- A slot's record is in tab memory with the check word computed over it, and the slot is not dirty (R31, R34). The word is the one that the
controller computed when the write-back started: the working record has not changed since (R34). -/
def State.recordWritten (s : State) (i : SlotId) : State :=
  match (s.slot i).tab, (s.slot i).record with
  | some t, some r => (s.store t (withCheck r)).setSlot i { s.slot i with dirty := false }
  | _, _ => s.setSlot i { s.slot i with dirty := false }

/-- The slot that a write-back for NEW has emptied: the ORDER that waits executes, and without it the slot becomes EMPTY (R34). -/
def State.openForNew (s : State) (i : SlotId) : State :=
  match (s.slot i).waits with
  | [] => s.setSlot i CacheSlot.cleared
  | w :: _ => s.runNewOrder i w

/-- A write-back of slot `i` completes (R34). -/
def State.finishWrite (s : State) (i : SlotId) : State :=
  let s1 := s.recordWritten i
  match (s.slot i).incoming with
  | .none => (s1.becomeReady i).countFlush i none
  | .tab t => (s1.uncache i).startFetch i t (s.slot i).waits
  | .new => (s1.uncache i).openForNew i

/-- What an abandoned write-back leaves in tab memory at its tab number (R30, R35). -/
def State.leaveMemory (s : State) (i : SlotId) (left : Option StoredRecord) : State :=
  match (s.slot i).tab, left with
  | some t, some cell => s.store t cell
  | _, _ => s

/-- A write-back of slot `i` is abandoned (R35). -/
def State.abandonWrite (s : State) (i : SlotId) (left : Option StoredRecord) : State :=
  let t := orZero (s.slot i).tab
  let s1 := (s.leaveMemory i left).raise (.tab t .writeAbandoned)
  match (s.slot i).incoming with
  | .none => (s1.becomeReady i).countFlush i (some t)
  | .tab u =>
    let s2 := (s1.setCached u none).refuseWaiters i .tabMemoryFault
    (s2.setSlot i { s2.slot i with waits := [] }).becomeReady i
  | .new =>
    let s2 := s1.refuseWaiters i .tabMemoryFault
    (s2.setSlot i { s2.slot i with waits := [] }).becomeReady i

/-! ### The audit (R38 to R41) -/

/-- The walk's look at the directory from where it stands: FREE and DAMAGED tabs are passed over and cached ones skipped (R39). Gives
the number skipped and the first tab to be read, if any. The entries come in ascending tab number; an entry not listed is FREE. -/
def auditLook : List (Nat × DirEntry) → Nat × Option Nat
  | [] => (0, none)
  | (t, e) :: rest =>
    if e.state = .free ∨ e.state = .damaged then auditLook rest
    else if e.slot.isSome then ((auditLook rest).1 + 1, (auditLook rest).2)
    else (0, some t)

/-- The walk examines tab numbers from `next` on: it queues the next audit read, or ends with an AUDIT DONE notice (R39, R41). -/
def State.walkAudit (s : State) (a : Audit) (next : Nat) : State :=
  let look := auditLook (s.directory.filter (fun e => next ≤ e.1))
  let b := { a with skipped := a.skipped + look.1 }
  match look.2 with
  | some t => { s with audit := some { b with position := t, freed := false }, auditQueued := some t }
  | none => { s with audit := none }.raise (.auditDone b.verified b.damaged b.skipped b.firstDamaged)

/-- AUDIT TABS when taken (R38). A malformed body is PARSE whether an audit runs or not (DEDUCED, assumption 25). -/
def takeAuditTabs (p : Port) (body : List Byte) (s : State) : State :=
  match emptyBody body with
  | none => s.refuse p .parse {}
  | some _ =>
    match s.audit with
    | some _ => s.refuse p .busy {}
    | none =>
      (s.reply p .accepted []).walkAudit
        { position := 1, verified := 0, damaged := 0, skipped := 0, firstDamaged := none, freed := false } 1

/-- The tab under audit is found bad: it becomes DAMAGED and a TAB notice is raised (R40). -/
def State.auditDamage (s : State) (t : Nat) : State := (s.damageTab t).raise (.tab t .damaged)

/-- The audit with one more tab skipped. -/
def auditSkip (a : Audit) : Audit := { a with skipped := a.skipped + 1 }

/-- The state of a tab that an audit read may make DAMAGED (R40): OPEN, TENDERING or CLOSED, and not cached. -/
def mayDamage (e : DirEntry) : Bool :=
  (e.state = .opened || e.state = .tendering || e.state = .closed) && e.slot.isNone

/-- The audit read of tab `t` has ended; `outcome` is none when it was abandoned, and otherwise says whether the record passed
(R40). The walk moves on. -/
def State.endAuditRead (s : State) (t : Nat) (outcome : Option Bool) : State :=
  match s.audit with
  | none => s
  | some a =>
    if a.freed then s.walkAudit (auditSkip a) (t + 1)
    else match outcome with
      | none => s.walkAudit (auditSkip a) (t + 1)
      | some true => s.walkAudit { a with verified := a.verified + 1 } (t + 1)
      | some false =>
        if mayDamage (s.dir t) then
          (s.auditDamage t).walkAudit
            { a with damaged := a.damaged + 1, firstDamaged := a.firstDamaged.or (some t) } (t + 1)
        else s.walkAudit (auditSkip a) (t + 1)

/-- The tab numbers not yet examined by a running audit, and 0 when none runs (R41). -/
def State.auditProgress (s : State) : Nat :=
  match s.audit with
  | none => 0
  | some a => 2049 - a.position

end Sys2Proof.Machine
end

