-- ==== Sys2Proof/Machine/Ports.lean ====
section
/-! DEFINITION. Lane ports as blocks of their own (chapter 9.4): port reset (R42, R151), LOAD PORTS (R141, R165), RESET PORT (R152), and
the end of a frame's sending (R149). -/

namespace Sys2Proof.Machine

/-! ### Port reset (R42, R151) -/

/-- A slot whose wait list has lost the request of a port (R42). -/
def dropWaiter (p : Port) (x : CacheSlot) : CacheSlot := { x with waits := x.waits.filter (fun w => w.port ≠ p) }

/-- Step 2 of R151: the port's waiting request is removed from its wait list, and from the split engine's, without a reply. -/
def State.dropRequest (s : State) (p : Port) : State :=
  { s with slots := s.slots.map (dropWaiter p), engineWait := s.engineWait.filter (fun q => q ≠ p) }

/-- A port reset of a port (R151): steps 1 and 3 to 5 leave the port as after part reset; the request goes; a TILL port's hold is
released; the kitchen handling is made whatever the role. -/
def State.resetPort (s : State) (p : Port) : State :=
  let s1 := (s.dropRequest p).setPort p LanePort.fresh
  let s2 := if (s.role p).isTill then s1.releaseHold p .portReset else s1
  s2.kitchenReset p

/-- RESET PORT when taken (R152). -/
def takeResetPort (p : Port) (body : List Byte) (s : State) : State :=
  match readResetPort body with
  | none => s.refuse p .parse {}
  | some q => if q = 0 then s.refuse p .notPermitted {} else (s.resetPort q).reply p .ok (num1 q.val)

/-! ### LOAD PORTS (R141, R165) -/

/-- One entry of a LOAD PORTS is applied (R141): a change of role resets the port first; a change of a till's group releases its
hold first; anything else does nothing. -/
def State.loadPort (s : State) (e : Port × PortRole) : State :=
  if s.role e.1 = e.2 then s
  else if (s.role e.1).isTill && e.2.isTill then (s.releaseHold e.1 .groupChange).setRole e.1 e.2
  else (s.resetPort e.1).setRole e.1 e.2

/-- LOAD PORTS when taken (R165). -/
def takeLoadPorts (p : Port) (body : List Byte) (s : State) : State :=
  if s.save.isSome then s.refuse p .busy {}
  else match readLoadPorts body with
    | none => s.refuse p .parse {}
    | some entries => (entries.foldl State.loadPort s).reply p .ok (num1 entries.length)

/-! ### The end of a frame's sending (R146, R149) -/

/-- A frame's last byte is sent: it leaves the transmit queue, the arbiter picks the next, and the reply of the slot's request frees
the request slot. -/
def State.frameLeaves (s : State) (p : Port) : State :=
  let x := s.port p
  match x.sending with
  | none => s
  | some f =>
    s.setPort p { { x with sending := none }.arbitrate with
      request := if f.source = .slotReply then none else x.request }

end Sys2Proof.Machine
end

