-- ==== Sys2Proof/Machine/Office.lean ====
section
/-! DEFINITION. The office unit (chapter 10): timers, notices on their way out, STATUS and DESCRIBE, SAVE CONFIG, the configuration flash
and start-up; and the split check of the split engine (R127 to R130). -/

namespace Sys2Proof.Machine

/-! ### LOAD TIMERS, NOTICE MASK, STATUS, DESCRIBE -/

/-- LOAD TIMERS when taken (R167). -/
def takeLoadTimers (p : Port) (body : List Byte) (s : State) : State :=
  s.unlessSaving p (match readTimers body with
    | none => s.refuse p .parse {}
    | some t => { s with timers := t }.reply p .ok (timerBytes t))

/-- NOTICE MASK when taken (R170). -/
def takeNoticeMask (p : Port) (body : List Byte) (s : State) : State :=
  match readMask body with
  | none => s.refuse p .parse {}
  | some m => { s with mask := m }.reply p .ok [m]

/-- The number of tabs in a state other than FREE (R171). -/
def State.tabsIn (s : State) (state : TabState) : Nat := (s.directory.filter (fun e => e.2.state = state)).length

/-- The number of FREE tabs (R171): the five counts add up to 2,048. -/
def State.freeTabs (s : State) : Nat := 2048 - (s.directory.filter (fun e => e.2.state ≠ .free)).length

/-- Ports 1 to 23. -/
def stationPorts : List Port := allPorts.tail

/-- The station states in STATUS: bit n-1 READY for port n (R157). -/
def State.readyBits (s : State) : Nat :=
  (stationPorts.map (fun p => bit (s.station p).ready (2 ^ (p.val - 1)))).sum

/-- The fields of a STATUS reply (R157, R171). -/
def State.statusBytes (s : State) : List Byte :=
  num2 s.freeTabs ++ num2 (s.tabsIn .opened) ++ num2 (s.tabsIn .tendering) ++ num2 (s.tabsIn .closed)
    ++ num2 (s.tabsIn .damaged) ++ num2 s.freeList.length ++ num2 s.closedList.length
    ++ allSlots.flatMap (fun i => num1 (slotStateCode (s.slot i).state))
    ++ stationPorts.flatMap (fun p => num1 (s.station p).queue.length) ++ num1 s.overflow.length ++ num3 s.readyBits
    ++ num1 (checkStateCode s.check) ++ num2 s.auditProgress ++ num1 s.notices.length ++ [s.startUp]

/-- STATUS when taken (R171). -/
def takeStatus (p : Port) (body : List Byte) (s : State) : State :=
  match emptyBody body with
  | none => s.refuse p .parse {}
  | some _ => s.reply p .ok s.statusBytes

/-- The fields of a DESCRIBE reply before the integrity word's high byte (R172). -/
def State.describeFront (s : State) : List Byte :=
  num2 0x0C31 ++ num2 0x2416 ++ num1 1 ++ num1 24 ++ num2 2048 ++ num1 8 ++ num2 1023 ++ num1 24 ++ num1 48
    ++ [s.startUp] ++ [0xA5]

/-- The integrity word's high byte (R172): every byte of the reply body, status and kind included, adds up to 0 modulo 256. -/
def integrityByte (front : List Byte) : Byte :=
  BitVec.ofNat 8 (256 - (Status.ok.byte.toNat + Kind.describe.byte.toNat + (front.map BitVec.toNat).sum) % 256)

/-- DESCRIBE when taken (R172). -/
def takeDescribe (p : Port) (body : List Byte) (s : State) : State :=
  match emptyBody body with
  | none => s.refuse p .parse {}
  | some _ => s.reply p .ok (s.describeFront ++ [integrityByte s.describeFront])

/-! ### NOTICE frames (R158, R169) -/

/-- The cause byte of a STATION notice (R158). -/
def stationCauseCode : StationCause → Nat
  | .ackTimeout => 0 | .portReset => 1 | .hello => 2

/-- The cause byte of a HOLD notice (R158). -/
def holdCauseCode : HoldCause → Nat
  | .expired => 0 | .portReset => 1 | .groupChange => 2

/-- The cause byte of a TAB notice (R158). -/
def tabCauseCode : TabCause → Nat
  | .damaged => 0 | .fetchAbandoned => 1 | .writeAbandoned => 2

/-- The cause byte of a CHECK notice (R158). -/
def checkCauseCode : CheckCause → Nat
  | .split => 0 | .checkSplit => 1

/-- The fields of a notice after its class and dropped mark (R158). -/
def noticeFields : Notice → List Byte
  | .station port ready cause moved remaining =>
    num1 port.val ++ flagByte ready ++ num1 (stationCauseCode cause) ++ num1 moved ++ num1 remaining
  | .stock item a stock => num2 item ++ num2 (availabilityWord a stock)
  | .hold till tab cause state paid =>
    num1 till.val ++ num2 tab ++ num1 (holdCauseCode cause) ++ num1 (tabStateCode state) ++ flagByte paid
  | .tab tab cause => num2 tab ++ num1 (tabCauseCode cause)
  | .check passed cause waiting => flagByte (!passed) ++ num1 (checkCauseCode cause) ++ num1 waiting
  | .auditDone verified damaged skipped first => num2 verified ++ num2 damaged ++ num2 skipped ++ num2 (orZero first)
  | .saveDone ok => [if ok then Status.ok.byte else Status.saveFailed.byte]

/-- The body of a NOTICE frame: class, dropped mark, and the fields of the class (R158). -/
def noticeBody (dropped : Bool) (n : Notice) : List Byte := num1 n.class ++ flagByte dropped ++ noticeFields n

/-- The notice at the head of the queue goes to port 0's transmit queue with the dropped mark, which is then clear (R169). -/
def State.sendNotice (s : State) : State :=
  match s.notices with
  | [] => s
  | n :: rest =>
    if (s.port 0).hasRoom then
      { s.sendOwn 0 .notice (noticeBody s.dropped n) .own with notices := rest, dropped := false }
    else s

/-! ### The split check (R127, R129, R130) -/

/-- CHECK SPLIT when taken (R130). A malformed body is PARSE whether a check runs or not (DEDUCED, assumption 25). -/
def takeCheckSplit (p : Port) (body : List Byte) (s : State) : State :=
  match emptyBody body with
  | none => s.refuse p .parse {}
  | some _ =>
    match s.check with
    | .running _ => s.refuse p .busy {}
    | _ => { s with check := .running .checkSplit }.reply p .accepted []

/-- The slot whose wait list has this port's request at its head. -/
def State.slotHeadedBy (s : State) (p : Port) : Option SlotId :=
  allSlots.find? (fun i => ((s.slot i).waits.head?).any (fun w => w.port = p))

/-- A SPLIT is released by a check that passed: it executes now if its slot is READY, and otherwise when its slot is READY again
(R129). -/
def State.releaseSplit (s : State) (p : Port) : State :=
  match s.slotHeadedBy p with
  | none => s
  | some i => s.executeHead i

/-- A SPLIT is answered CHECK-FAILED and leaves its slot's wait list (R129). -/
def State.failSplit (s : State) (p : Port) : State :=
  match s.slotHeadedBy p with
  | none => s
  | some i =>
    match (s.slot i).waits with
    | [] => s
    | w :: _ => s.turnAway i w .checkFailed

/-- The split check ends (R129): every SPLIT that waits is released or answered, in the order it joined (DEDUCED, assumption 13). -/
def State.endCheck (s : State) (passed : Bool) : State :=
  match s.check with
  | .running cause =>
    let waiting := s.engineWait
    let s1 := { s with check := if passed then .passed else .failed, engineWait := [] }.raise
      (.check passed cause waiting.length)
    waiting.foldl (if passed then State.releaseSplit else State.failSplit) s1
  | _ => s

/-! ### Configuration flash nodes (R159) -/

/-- A byte of the flash; those never written, or erased, read as erased (R162). -/
def flashByte (flash : List Byte) (n : Nat) : Byte := flash.getD n Config.erasedByte

/-- A run of bytes of the flash. -/
def flashRun (flash : List Byte) (start count : Nat) : List Byte :=
  (List.range count).map (fun k => flashByte flash (start + k))

/-- A node: id, body length, body, CRC (R159). -/
def flashNode (id : Nat) (body : List Byte) : List Byte :=
  let front := num1 id ++ num2 body.length ++ body
  front ++ crcBytes front

/-- An item entry as LOAD ITEMS carries it, with the item's level in its level field (R156, R174). -/
def itemEntryBytes (c : Nat) (i : Item) : List Byte :=
  num2 c ++ num1 (itemFlags i) ++ num3 i.price ++ num1 i.taxClass.val ++ num1 (portNumber i.station)
    ++ num2 ((i.tracking.map Tracking.level).getD 0) ++ num1 ((i.tracking.map Tracking.lowMark).getD 0)

/-- A station entry as LOAD STATIONS carries it (R156, R174). -/
def stationEntryBytes (p : Port) (x : Station) : List Byte :=
  num1 p.val ++ num1 (stationFlags x) ++ num1 (portNumber x.alternate) ++ num1 x.window

/-- Cuts a list into pieces of 64, the last holding the rest; `fuel` bounds the number of pieces (R174). -/
def inSixtyFours {α : Type} : Nat → List α → List (List α)
  | 0, _ => []
  | _ + 1, [] => []
  | fuel + 1, x :: rest => (x :: rest).take 64 :: inSixtyFours fuel ((x :: rest).drop 64)

/-- The nodes of the ITEMS tables (R174). -/
def State.itemNodes (s : State) : List (List Byte) :=
  (inSixtyFours s.items.length s.items).map (fun es =>
    flashNode 6 (num1 es.length ++ es.flatMap (fun e => itemEntryBytes e.1 e.2)))

/-- The chain that a save writes, node by node (R174). -/
def State.saveChain (s : State) : List (List Byte) :=
  [flashNode 1 (num1 23 ++ stationPorts.flatMap (fun p => num1 p.val ++ roleBytes (s.role p))),
   flashNode 2 (rateBytes s.serviceRates.toList),
   flashNode 3 (rateBytes s.taxRates.toList),
   flashNode 4 (num1 23 ++ stationPorts.flatMap (fun p => stationEntryBytes p (s.station p))),
   flashNode 5 (timerBytes s.timers)] ++ s.itemNodes ++ [flashNode 7 []]

/-! ### Saving (R173, R174) -/

/-- SAVE CONFIG when taken (R173): the save begins with the erase. A malformed body is PARSE whether a save runs or not (DEDUCED,
assumption 25). -/
def takeSaveConfig (p : Port) (body : List Byte) (s : State) : State :=
  match emptyBody body with
  | none => s.refuse p .parse {}
  | some _ =>
    match s.save with
    | some _ => s.refuse p .busy {}
    | none => { s with save := some { stage := .erasing, began := s.now } }.reply p .accepted []

/-- A save ends with a SAVE DONE notice, and the loads are taken again (R174). -/
def State.endSave (s : State) (ok : Bool) : State := { s with save := none }.raise (.saveDone ok)

/-- The moment at which an erase or write of a save that began then counts as not ended (R174). -/
def saveLimit (began : Nat) : Nat := began + Config.flashLimit

/-- The erase of a save ends in time, and the first node's writing begins (R174). An end that comes too late changes nothing: the
time-out's command ends the save. -/
def State.eraseDone (s : State) : State :=
  match s.save with
  | some { stage := .erasing, began := b } =>
    if s.inTime (saveLimit b) then { s with flash := [], save := some { stage := .writing 0, began := s.now } } else s
  | _ => s

/-- Bytes that stand in a node's place: as many as the node has, those not given being erased. What follows the place stays erased (R174). -/
def inPlaceOf (node bytes : List Byte) : List Byte := flashRun bytes 0 node.length

/-- Node `k` of a save has been read back (R174): as written, the save goes on to the next node or ends; otherwise it fails, and the
flash holds what was read in the node's place. -/
def State.nodeRead (s : State) (k : Nat) (readBack : Option (List Byte)) : State :=
  match s.saveChain[k]? with
  | none => s
  | some node =>
    let read := (readBack.map (inPlaceOf node)).getD node
    let s1 := { s with flash := s.flash ++ read }
    if read ≠ node then s1.endSave false
    else if k + 1 < s.saveChain.length then { s1 with save := some { stage := .writing (k + 1), began := s.now } }
    else s1.endSave true

/-- The node that a save writes has been written in time and read back (R174). An end that comes too late changes nothing: the
time-out's command ends the save. -/
def State.nodeVerified (s : State) (readBack : Option (List Byte)) : State :=
  match s.save with
  | some { stage := .writing k, began := b } => if s.inTime (saveLimit b) then s.nodeRead k readBack else s
  | _ => s

/-- What an erase that did not end leaves: a part of the previous chain (R174), each byte as it was or erased (DEDUCED, assumption 3). A byte
is kept where `left` has it. -/
def erasedInPart (flash left : List Byte) : List Byte :=
  (List.range flash.length).map (fun n =>
    if flashByte left n = flashByte flash n then flashByte flash n else Config.erasedByte)

/-- What a save cut off leaves in the flash (R174): the good nodes, the failing node's place as the fault left it, and erased bytes; or,
when the erase was cut off, a part of the previous chain. -/
def State.flashLeft (s : State) (stage : SaveStage) (left : List Byte) : List Byte :=
  match stage with
  | .erasing => erasedInPart s.flash left
  | .writing k => s.flash ++ inPlaceOf ((s.saveChain[k]?).getD []) left

/-- A save fails (R174). -/
def State.failSave (s : State) (left : List Byte) : State :=
  match s.save with
  | none => s
  | some v => { s with flash := s.flashLeft v.stage left }.endSave false

/-- A save's erase or write has not ended 500 ms after it began (R174). -/
def State.timeOutSave (s : State) (left : List Byte) : State :=
  match s.save with
  | none => s
  | some v => (s.reach (saveLimit v.began)).failSave left

/-! ### Start-up (R2, R161 to R164) -/

/-- A good node (R163): what it loads. -/
inductive NodeLoad where
  | ports (entries : List (Port × PortRole))
  | groups (rates : Vector Nat 8)
  | taxes (rates : Vector Nat 4)
  | stations (entries : List (Port × StationEntry))
  | timers (t : Timers)
  | items (entries : List (Nat × Option Item))
  | last
  deriving DecidableEq, Repr

/-- Entries that name each of ports 1 to 23 (R163; DEDUCED, assumption 15). -/
def namesEveryPort {α : Type} (entries : List (Port × α)) : Bool :=
  entries.length == 23 && stationPorts.all (fun p => entries.any (fun e => e.1 = p))

/-- A node's body is judged by its id (R163): none when it does not fit. -/
def readNodeBody (id : Nat) (body : List Byte) : Option NodeLoad :=
  match id with
  | 1 => (readLoadPorts body).bind (fun es => if namesEveryPort es then some (.ports es) else none)
  | 2 => (readGroups body).map .groups
  | 3 => (readTaxes body).map .taxes
  | 4 => (readLoadStations body).bind (fun es => if namesEveryPort es then some (.stations es) else none)
  | 5 => (readTimers body).map .timers
  | 6 => (readItemList 64 body).map .items
  | 7 => if body = [] then some .last else none
  | _ => none

/-- The node at a place in the flash is judged (R162, R163): its load and the place after it, or none when it is bad or would run
past the end of the device. -/
def readNode (flash : List Byte) (start : Nat) : Option (NodeLoad × Nat) :=
  let id := (flashByte flash start).toNat
  let count := read2 (flashByte flash (start + 1)) (flashByte flash (start + 2))
  let after := start + count + 5
  if id = 0 ∨ 7 < id ∨ 1024 < count ∨ Config.flashBytes < after then none
  else
    let front := flashRun flash start (count + 3)
    if crcBytes front = flashRun flash (start + count + 3) 2 then
      (readNodeBody id (front.drop 3)).map (fun load => (load, after))
    else none

/-- The table a node is of (R164). -/
def loadBit : NodeLoad → Option LoadBit
  | .ports _ => some .ports
  | .groups _ => some .groups
  | .taxes _ => some .taxes
  | .stations _ => some .stations
  | .timers _ => some .timers
  | .items _ => some .items
  | .last => none

/-- A good node is loaded with the effects of its load, less port resets, latches, replies and notices (R163). -/
def State.loadNode (s : State) : NodeLoad → State
  | .ports entries => entries.foldl (fun acc e => acc.setRole e.1 e.2) s
  | .groups rates => { s with serviceRates := rates }
  | .taxes rates => { s with taxRates := rates }
  | .stations entries => entries.foldl State.loadStation s
  | .timers t => { s with timers := t }
  | .items entries => s.loadItems entries
  | .last => s

/-- The start-up result with the bit of a node's table (R164). -/
def State.markLoaded (s : State) (load : NodeLoad) : State :=
  match loadBit load with
  | none => s
  | some b => { s with startUp := setLoadBit s.startUp b }

/-- The walk has ended: the directory is formatted (R2), the phase becomes READY and the image period timer starts (R96, R161). -/
def State.finishStartUp (s : State) : State :=
  { s with
    directory := [], freeList := allTabs, closedList := [], phase := .ready,
    imageTimer := some (s.now + 1000 * s.timers.image) }

/-- The config walk reads one node (R162). -/
def State.walkNode (s : State) (read : FlashRead) : State :=
  match read, readNode s.flash s.walkAt with
  | .contents, some (.last, _) => s.finishStartUp
  | .contents, some (load, next) => { (s.loadNode load).markLoaded load with walkAt := next }
  | _, _ => s.finishStartUp

/-- What a save cut off by a part reset leaves in the flash (R173). -/
def State.flashAfterReset (s : State) (left : List Byte) : List Byte :=
  match s.save with
  | none => s.flash
  | some v => s.flashLeft v.stage left

/-- A part reset (R161): every block in its part-reset state. Tab memory and the flash keep what they hold (R2, R173), and the model's
own clock and queue of commands go on (assumption 24). -/
def State.partReset (s : State) (left : List Byte) : State :=
  { State.reset with
    pending := s.pending, now := s.now, flash := s.flashAfterReset left, tabMemory := s.tabMemory }

/-- Every resync counter below 3 is raised (R95, R96). -/
def Station.imagePeriod (x : Station) : Station := { x with resync := raiseResync x.resync }

/-- The image period timer expires and restarts (R96). -/
def State.imagePeriod (s : State) : State :=
  match s.imageTimer with
  | none => s
  | some d =>
    let s1 := s.reach d
    { s1 with
      stations := s1.stations.map Station.imagePeriod, imageTimer := some (s1.now + 1000 * s1.timers.image) }

end Sys2Proof.Machine
end

