-- ==== Sys2Proof/Machine/Receive.lean ====
section
/-! DEFINITION. Receiving a frame (chapter 9.2): R143 to R147. The checks stand in the manual's order: delimiting and length, role,
CRC, kind, phase, request slot. -/

namespace Sys2Proof.Machine

/-- What the block that owns a request kind does with a body it has taken, at a port (R146). -/
abbrev TakenRequest := Port → List Byte → State → State

/-- A delimiter has come at a port: the assembly is empty and the port gathers the next run (R143). A frame command stands for a
whole frame between two delimiters (DESIGN CHOICE, assumption 11). -/
def State.delimit (s : State) (p : Port) : State := s.setPort p { s.port p with discarding := false, assembly := [] }

/-- The request slot of a port is taken by a request (R146). -/
def State.occupy (s : State) (p : Port) (k : Kind) (tag : Byte) : State :=
  s.setPort p { s.port p with request := some { kind := k, tag := tag } }

/-- R145's phase check and R146: a request of a permitted kind is answered STARTING or BUSY, or is taken and goes to its block. -/
def State.judgeSlot (s : State) (p : Port) (k : Kind) (tag : Byte) (body : List Byte) (block : TakenRequest) : State :=
  if s.phase = .starting ∧ k ≠ .describe then s.answer p .starting k.byte tag
  else if (s.port p).request.isSome then s.answer p .busy k.byte tag
  else block p body (s.occupy p k tag)

/-- A frame of this kind whose CRC matches arrives at a port of some role: R145. A TAKEN is no request and goes to the kitchen
unit at once. -/
def State.judgeKind (s : State) (p : Port) (k : Kind) (tag : Byte) (body : List Byte) (block : TakenRequest) : State :=
  if maySend (s.role p) k then
    if k = .taken then takeTaken p body s else s.judgeSlot p k tag body block
  else s.answer p .notPermitted k.byte tag

/-- A frame of kind `k` arrives whole and with a matching CRC (R143 to R146). A body that no frame can hold is no frame (R153); a
frame at an UNUSED port is discarded (R144). -/
def receive (k : Kind) (block : TakenRequest) (p : Port) (tag : Byte) (body : List Byte) (s : State) : State :=
  if maxBody < body.length then s
  else if s.role p = .unused then s.delimit p
  else (s.delimit p).judgeKind p k tag body block

/-- The block that owns a request kind (R146). A kind that the switch alone sends, and TAKEN, is never taken as a request. -/
def ownerOf : Kind → TakenRequest
  | .order => takeOrder | .void => takeVoid | .readTab => takeReadTab | .listTabs => takeListTabs | .split => takeSplit
  | .cancelSplit => takeCancelSplit | .tender => takeTender | .resume => takeResume | .availQuery => takeAvailQuery
  | .hello => takeHello | .start => takeStart | .bump => takeBump | .recallTicket => takeRecall
  | .loadPorts => takeLoadPorts | .loadGroups => takeLoadGroups | .loadTaxes => takeLoadTaxes
  | .loadItems => takeLoadItems | .loadStations => takeLoadStations | .loadTimers => takeLoadTimers
  | .setStock => takeSetStock | .adjustStock => takeAdjustStock | .readItems => takeReadItems
  | .collect => takeCollect | .discardTab => takeDiscardTab | .cancelTicket => takeCancelTicket
  | .flushTabs => takeFlushTabs | .auditTabs => takeAuditTabs | .checkSplit => takeCheckSplit
  | .resetPort => takeResetPort | .saveConfig => takeSaveConfig | .noticeMask => takeNoticeMask
  | .status => takeStatus | .describe => takeDescribe
  | .taken => takeTaken
  | .ticket | .withdraw | .image | .reply | .availability | .notice => fun _ _ s => s

/-- A frame with this kind byte arrives whole and with a matching CRC: a byte that R155 does not assign is answered NOT-PERMITTED
(R145), and any other frame is judged by its kind. -/
def receiveByte (kind : Byte) (p : Port) (tag : Byte) (body : List Byte) (s : State) : State :=
  match kindOfByte kind with
  | some k => receive k (ownerOf k) p tag body s
  | none =>
    if maxBody < body.length then s
    else if s.role p = .unused then s.delimit p
    else (s.delimit p).answer p .notPermitted kind tag

/-- A frame whose length is right comes to R144: discarded at an UNUSED port, answered LINK-ERROR when its CRC does not match, and
otherwise judged by its kind. -/
def receiveFrame (p : Port) (run : List Byte) (s : State) : State :=
  if s.role p = .unused then s.delimit p
  else if crcMatches run then
    match run with
    | _ :: kind :: tag :: rest => receiveByte kind p tag (rest.take (rest.length - 2)) s
    | _ => s.delimit p
  else (s.delimit p).answer p .linkError 0 0

/-- A delimiter ends a run of bytes (R143): together with what the assembly held it is judged. A run that a port discards while it
waits for a delimiter, and a run that is no frame, is discarded without an answer. -/
def receiveRun (p : Port) (run : List Byte) (s : State) : State :=
  if (s.port p).discarding || !runIsFrame ((s.port p).assembly ++ run) then s.delimit p
  else receiveFrame p ((s.port p).assembly ++ run) s

end Sys2Proof.Machine
end

