-- ==== Sys2Proof/Machine/MemoryCommands.lean ====
section
/-! DEFINITION. The meanings of the memory controller's events (R29 to R41), of a wait list's next execution (R25), of the end of a split
check (R129), of a hold's expiry (R106) and of a save's steps (R174). A completion that comes after its operation's time limit does not
count: it changes nothing, and the abandonment's command ends the operation (R30). The end of an operation that is not under way is
ignored (R30: a completion that comes later is ignored; DESIGN CHOICE, assumption 12, for the others). -/

namespace Sys2Proof.Machine

/-- HOLD_EXPIRY (R106): the moment of the port's deadline is reached, and its hold ends. -/
def execHoldExpiry (port : Port) (s : State) : Host.Outcome State Fault Refusal :=
  .next (match s.hold port with
    | none => s
    | some h => (s.reach h.deadline).releaseHold port .expired)

/-- MEMORY_OP_START (R29). -/
def execMemoryOpStart (s : State) : Host.Outcome State Fault Refusal := .next s.startOperation

/-- FETCH_COMPLETE (R32), within the operation's time limit (R30). -/
def execFetchComplete (read : MemRead) (s : State) : Host.Outcome State Fault Refusal :=
  .next (match s.memRunning with
    | some { op := .fetch i, deadline := d } =>
      if s.inTime d then s.freeController.finishFetch i (orZero (s.slot i).tab) read else s
    | _ => s)

/-- FETCH_ABANDONED (R33): the operation's time has run out (R30). -/
def execFetchAbandoned (s : State) : Host.Outcome State Fault Refusal :=
  .next (match s.memRunning with
    | some { op := .fetch i, deadline := d } => (s.freeController.reach d).abandonFetch i (orZero (s.slot i).tab)
    | _ => s)

/-- WRITE_BACK_COMPLETE (R34), within the operation's time limit (R30). -/
def execWriteBackComplete (s : State) : Host.Outcome State Fault Refusal :=
  .next (match s.memRunning with
    | some { op := .writeBack i, deadline := d } => if s.inTime d then s.freeController.finishWrite i else s
    | _ => s)

/-- WRITE_BACK_ABANDONED (R35): the operation's time has run out (R30). -/
def execWriteBackAbandoned (left : Option StoredRecord) (s : State) : Host.Outcome State Fault Refusal :=
  .next (match s.memRunning with
    | some { op := .writeBack i, deadline := d } => (s.freeController.reach d).abandonWrite i left
    | _ => s)

/-- AUDIT_READ_COMPLETE (R40), within the operation's time limit (R30). -/
def execAuditReadComplete (read : MemRead) (s : State) : Host.Outcome State Fault Refusal :=
  .next (match s.memRunning with
    | some { op := .auditRead t, deadline := d } =>
      if s.inTime d then s.freeController.endAuditRead t (some (passes t (s.readMemory t read)).isSome) else s
    | _ => s)

/-- AUDIT_READ_ABANDONED (R40): the operation's time has run out (R30). -/
def execAuditReadAbandoned (s : State) : Host.Outcome State Fault Refusal :=
  .next (match s.memRunning with
    | some { op := .auditRead t, deadline := d } => (s.freeController.reach d).endAuditRead t none
    | _ => s)

/-- SPLIT_CHECK_END (R129). -/
def execSplitCheckEnd (passed : Bool) (s : State) : Host.Outcome State Fault Refusal := .next (s.endCheck passed)

/-- WAITER_EXECUTES (R25). -/
def execWaiterExecutes (slot : SlotId) (s : State) : Host.Outcome State Fault Refusal := .next (s.executeHead slot)

/-- SAVE_ERASE_COMPLETE (R174): the erase ends within its 500 ms. -/
def execSaveEraseComplete (s : State) : Host.Outcome State Fault Refusal := .next s.eraseDone

/-- SAVE_NODE_VERIFIED (R174): the write ends within its 500 ms and is read back. -/
def execSaveNodeVerified (readBack : Option (List Byte)) (s : State) : Host.Outcome State Fault Refusal :=
  .next (s.nodeVerified readBack)

/-- SAVE_FAULT (R174): the flash port reports a fault. -/
def execSaveFault (left : List Byte) (s : State) : Host.Outcome State Fault Refusal := .next (s.failSave left)

/-- SAVE_TIMEOUT (R174): an erase or a write has not ended 500 ms after it began. -/
def execSaveTimeout (left : List Byte) (s : State) : Host.Outcome State Fault Refusal := .next (s.timeOutSave left)

end Sys2Proof.Machine
end

