-- ==== Sys2Proof/Machine/OfficeCommands.lean ====
section
/-! DEFINITION. The meanings of the frames that the office controller sends on port 0 (R142). -/

namespace Sys2Proof.Machine

/-- LOAD PORTS (R165). -/
def execLoadPorts (port : Port) (tag : Byte) (body : List Byte) (s : State) : Host.Outcome State Fault Refusal :=
  .next (receive .loadPorts takeLoadPorts port tag body s)

/-- LOAD GROUPS (R44). -/
def execLoadGroups (port : Port) (tag : Byte) (body : List Byte) (s : State) : Host.Outcome State Fault Refusal :=
  .next (receive .loadGroups takeLoadGroups port tag body s)

/-- LOAD TAXES (R43). -/
def execLoadTaxes (port : Port) (tag : Byte) (body : List Byte) (s : State) : Host.Outcome State Fault Refusal :=
  .next (receive .loadTaxes takeLoadTaxes port tag body s)

/-- LOAD ITEMS (R46). -/
def execLoadItems (port : Port) (tag : Byte) (body : List Byte) (s : State) : Host.Outcome State Fault Refusal :=
  .next (receive .loadItems takeLoadItems port tag body s)

/-- LOAD STATIONS (R166). -/
def execLoadStations (port : Port) (tag : Byte) (body : List Byte) (s : State) : Host.Outcome State Fault Refusal :=
  .next (receive .loadStations takeLoadStations port tag body s)

/-- LOAD TIMERS (R167). -/
def execLoadTimers (port : Port) (tag : Byte) (body : List Byte) (s : State) : Host.Outcome State Fault Refusal :=
  .next (receive .loadTimers takeLoadTimers port tag body s)

/-- SET STOCK (R49). -/
def execSetStock (port : Port) (tag : Byte) (body : List Byte) (s : State) : Host.Outcome State Fault Refusal :=
  .next (receive .setStock takeSetStock port tag body s)

/-- ADJUST STOCK (R50). -/
def execAdjustStock (port : Port) (tag : Byte) (body : List Byte) (s : State) : Host.Outcome State Fault Refusal :=
  .next (receive .adjustStock takeAdjustStock port tag body s)

/-- READ ITEMS (R47). -/
def execReadItems (port : Port) (tag : Byte) (body : List Byte) (s : State) : Host.Outcome State Fault Refusal :=
  .next (receive .readItems takeReadItems port tag body s)

/-- COLLECT (R138). -/
def execCollect (port : Port) (tag : Byte) (body : List Byte) (s : State) : Host.Outcome State Fault Refusal :=
  .next (receive .collect takeCollect port tag body s)

/-- DISCARD TAB (R15). -/
def execDiscardTab (port : Port) (tag : Byte) (body : List Byte) (s : State) : Host.Outcome State Fault Refusal :=
  .next (receive .discardTab takeDiscardTab port tag body s)

/-- CANCEL TICKET (R85). -/
def execCancelTicket (port : Port) (tag : Byte) (body : List Byte) (s : State) : Host.Outcome State Fault Refusal :=
  .next (receive .cancelTicket takeCancelTicket port tag body s)

/-- FLUSH TABS (R36). -/
def execFlushTabs (port : Port) (tag : Byte) (body : List Byte) (s : State) : Host.Outcome State Fault Refusal :=
  .next (receive .flushTabs takeFlushTabs port tag body s)

/-- AUDIT TABS (R38). -/
def execAuditTabs (port : Port) (tag : Byte) (body : List Byte) (s : State) : Host.Outcome State Fault Refusal :=
  .next (receive .auditTabs takeAuditTabs port tag body s)

/-- CHECK SPLIT (R130). -/
def execCheckSplit (port : Port) (tag : Byte) (body : List Byte) (s : State) : Host.Outcome State Fault Refusal :=
  .next (receive .checkSplit takeCheckSplit port tag body s)

/-- RESET PORT (R152). -/
def execResetPort (port : Port) (tag : Byte) (body : List Byte) (s : State) : Host.Outcome State Fault Refusal :=
  .next (receive .resetPort takeResetPort port tag body s)

/-- SAVE CONFIG (R173). -/
def execSaveConfig (port : Port) (tag : Byte) (body : List Byte) (s : State) : Host.Outcome State Fault Refusal :=
  .next (receive .saveConfig takeSaveConfig port tag body s)

/-- NOTICE MASK (R170). -/
def execNoticeMask (port : Port) (tag : Byte) (body : List Byte) (s : State) : Host.Outcome State Fault Refusal :=
  .next (receive .noticeMask takeNoticeMask port tag body s)

/-- STATUS (R171). -/
def execStatus (port : Port) (tag : Byte) (body : List Byte) (s : State) : Host.Outcome State Fault Refusal :=
  .next (receive .status takeStatus port tag body s)

/-- DESCRIBE (R172). -/
def execDescribe (port : Port) (tag : Byte) (body : List Byte) (s : State) : Host.Outcome State Fault Refusal :=
  .next (receive .describe takeDescribe port tag body s)

end Sys2Proof.Machine
end

