-- ==== Sys2Proof/Machine/PortCommands.lean ====
section
/-! DEFINITION. The meanings of part reset and start-up (R161, R162), of runs and frames that a port ends (R143 to R145), and of the end of
a frame's sending (R149). -/

namespace Sys2Proof.Machine

/-- PART_RESET (R161): power-on or the reset pin. -/
def execPartReset (flashLeft : List Byte) (s : State) : Host.Outcome State Fault Refusal := .next (s.partReset flashLeft)

/-- CONFIG_WALK_NODE (R162). The walk stands still outside STARTING. -/
def execConfigWalkNode (read : FlashRead) (s : State) : Host.Outcome State Fault Refusal :=
  .next (if s.phase = .starting then s.walkNode read else s)

/-- RUN_DISCARDED (R143): a delimiter ends a run of bytes at a port. -/
def execRunDiscarded (port : Port) (run : List Byte) (s : State) : Host.Outcome State Fault Refusal :=
  .next (receiveRun port run s)

/-- LINK_ERROR (R144): a whole frame arrives, its CRC bytes among the bytes given. -/
def execLinkError (port : Port) (run : List Byte) (s : State) : Host.Outcome State Fault Refusal :=
  .next (if runIsFrame run then receiveFrame port run s else s.delimit port)

/-- KIND_NOT_PERMITTED (R145): a frame of any kind byte arrives with a matching CRC. -/
def execKindNotPermitted (port : Port) (kind tag : Byte) (body : List Byte) (s : State) : Host.Outcome State Fault Refusal :=
  .next (receiveByte kind port tag body s)

/-- FRAME_SENT (R149). -/
def execFrameSent (port : Port) (s : State) : Host.Outcome State Fault Refusal := .next (s.frameLeaves port)

end Sys2Proof.Machine
end

