-- ==== Sys2Proof/Machine/SendCommands.lean ====
section
/-! DEFINITION. The meanings of the events by which the switch sends on its own account: R62, R63, R73, R88, R96 to R98, R169. An event
whose conditions do not hold leaves the state as it is (DESIGN CHOICE, assumption 12). -/

namespace Sys2Proof.Machine

/-- ACK_TIMER_EXPIRY (R88): a running ack timer expires, and its station goes dark. -/
def execAckTimerExpiry (port : Port) (s : State) : Host.Outcome State Fault Refusal :=
  .next (match (s.station port).ackTimer with
    | none => s
    | some d => s.ackExpiry port d)

/-- IMAGE_PERIOD_EXPIRY (R96). -/
def execImagePeriodExpiry (s : State) : Host.Outcome State Fault Refusal := .next s.imagePeriod

/-- TICKET_SEND (R73): the station's first QUEUED or STALE ticket is sent, when R73's conditions hold. -/
def execTicketSend (port : Port) (s : State) : Host.Outcome State Fault Refusal :=
  .next (if s.maySendTicket port then
      match nextToSend (s.station port).queue with
      | none => s
      | some t => s.sendTicket port t
    else s)

/-- URGENT_IMAGE (R98): a READY station whose resync counter is 3 is sent its image as soon as there is room. -/
def execUrgentImage (port : Port) (s : State) : Host.Outcome State Fault Refusal :=
  .next (if (s.station port).ready ∧ (s.station port).resync = 3 ∧ (s.port port).hasRoom then s.sendImage port 0 else s)

/-- TRICKLE_IMAGE (R97): a READY station whose resync counter is 1 or 2 is sent its image when its transmit queue is empty. -/
def execTrickleImage (port : Port) (s : State) : Host.Outcome State Fault Refusal :=
  .next (if (s.station port).ready ∧ ((s.station port).resync = 1 ∨ (s.station port).resync = 2)
        ∧ (s.port port).frames.isEmpty then
      s.sendImage port (lowerResync (s.station port).resync)
    else s)

/-- AVAILABILITY_OFFER (R62). -/
def execAvailabilityOffer (s : State) : Host.Outcome State Fault Refusal := .next s.offerAvailability

/-- AVAILABILITY_IMAGE_FRAME (R63). -/
def execAvailabilityImageFrame (port : Port) (s : State) : Host.Outcome State Fault Refusal :=
  .next (if s.imageFrameDue port then s.sendAvailabilityImage port else s)

/-- NOTICE_SEND (R169). -/
def execNoticeSend (s : State) : Host.Outcome State Fault Refusal := .next s.sendNotice

end Sys2Proof.Machine
end

