-- ==== Sys2Proof/Machine/StationCommands.lean ====
section
/-! DEFINITION. The meanings of the frames that a station sends (R142). -/

namespace Sys2Proof.Machine

/-- HELLO (R87). -/
def execHello (port : Port) (tag : Byte) (body : List Byte) (s : State) : Host.Outcome State Fault Refusal :=
  .next (receive .hello takeHello port tag body s)

/-- TAKEN (R76): an answer; it uses no request slot (R145). -/
def execTaken (port : Port) (tag : Byte) (body : List Byte) (s : State) : Host.Outcome State Fault Refusal :=
  .next (receive .taken takeTaken port tag body s)

/-- START (R77). -/
def execStart (port : Port) (tag : Byte) (body : List Byte) (s : State) : Host.Outcome State Fault Refusal :=
  .next (receive .start takeStart port tag body s)

/-- BUMP (R78, R79). -/
def execBump (port : Port) (tag : Byte) (body : List Byte) (s : State) : Host.Outcome State Fault Refusal :=
  .next (receive .bump takeBump port tag body s)

/-- RECALL (R81). -/
def execRecallTicket (port : Port) (tag : Byte) (body : List Byte) (s : State) : Host.Outcome State Fault Refusal :=
  .next (receive .recallTicket takeRecall port tag body s)

end Sys2Proof.Machine
end

