-- ==== Sys2Proof/Machine/TillCommands.lean ====
section
/-! DEFINITION. The meanings of the frames that a till sends (R142): each is received by R143 to R146 and acted on by the block that owns
its kind. -/

namespace Sys2Proof.Machine

/-- ORDER (R52): a till's order is taken and goes to the tab cache (chapter 3.4). -/
def execOrder (port : Port) (tag : Byte) (body : List Byte) (s : State) : Host.Outcome State Fault Refusal :=
  .next (receive .order takeOrder port tag body s)

/-- VOID (R58): a till's VOID is taken and goes to the tab cache (chapter 3.5). -/
def execVoid (port : Port) (tag : Byte) (body : List Byte) (s : State) : Host.Outcome State Fault Refusal :=
  .next (receive .void takeVoid port tag body s)

/-- READ TAB (R17), from a till or the uplink. -/
def execReadTab (port : Port) (tag : Byte) (body : List Byte) (s : State) : Host.Outcome State Fault Refusal :=
  .next (receive .readTab takeReadTab port tag body s)

/-- LIST TABS (R16), from a till or the uplink. -/
def execListTabs (port : Port) (tag : Byte) (body : List Byte) (s : State) : Host.Outcome State Fault Refusal :=
  .next (receive .listTabs takeListTabs port tag body s)

/-- SPLIT (R115, R122). -/
def execSplit (port : Port) (tag : Byte) (body : List Byte) (s : State) : Host.Outcome State Fault Refusal :=
  .next (receive .split takeSplit port tag body s)

/-- CANCEL SPLIT (R126). -/
def execCancelSplit (port : Port) (tag : Byte) (body : List Byte) (s : State) : Host.Outcome State Fault Refusal :=
  .next (receive .cancelSplit takeCancelSplit port tag body s)

/-- TENDER (R132, R133). -/
def execTender (port : Port) (tag : Byte) (body : List Byte) (s : State) : Host.Outcome State Fault Refusal :=
  .next (receive .tender takeTender port tag body s)

/-- RESUME (R108). -/
def execResume (port : Port) (tag : Byte) (body : List Byte) (s : State) : Host.Outcome State Fault Refusal :=
  .next (receive .resume takeResume port tag body s)

/-- AVAIL QUERY (R63). -/
def execAvailQuery (port : Port) (tag : Byte) (body : List Byte) (s : State) : Host.Outcome State Fault Refusal :=
  .next (receive .availQuery takeAvailQuery port tag body s)

end Sys2Proof.Machine
end

