-- ==== Sys2Proof/Machine/Dispatch.lean ====
section
/-! DEFINITION. The meaning of every command: one arm for each constructor of Instr. -/

namespace Sys2Proof.Machine

/-- What a command does to the switch, apart from the queue it stood in. -/
def exec (i : Instr) (s : State) : Host.Outcome State Fault Refusal :=
  match i with
  | .partReset flashLeft => Sys2Proof.Machine.execPartReset flashLeft s
  | .configWalkNode read => Sys2Proof.Machine.execConfigWalkNode read s
  | .runDiscarded port run => Sys2Proof.Machine.execRunDiscarded port run s
  | .linkError port run => Sys2Proof.Machine.execLinkError port run s
  | .kindNotPermitted port kind tag body => Sys2Proof.Machine.execKindNotPermitted port kind tag body s
  | .order port tag body => Sys2Proof.Machine.execOrder port tag body s
  | .void port tag body => Sys2Proof.Machine.execVoid port tag body s
  | .readTab port tag body => Sys2Proof.Machine.execReadTab port tag body s
  | .listTabs port tag body => Sys2Proof.Machine.execListTabs port tag body s
  | .split port tag body => Sys2Proof.Machine.execSplit port tag body s
  | .cancelSplit port tag body => Sys2Proof.Machine.execCancelSplit port tag body s
  | .tender port tag body => Sys2Proof.Machine.execTender port tag body s
  | .resume port tag body => Sys2Proof.Machine.execResume port tag body s
  | .availQuery port tag body => Sys2Proof.Machine.execAvailQuery port tag body s
  | .hello port tag body => Sys2Proof.Machine.execHello port tag body s
  | .taken port tag body => Sys2Proof.Machine.execTaken port tag body s
  | .start port tag body => Sys2Proof.Machine.execStart port tag body s
  | .bump port tag body => Sys2Proof.Machine.execBump port tag body s
  | .recallTicket port tag body => Sys2Proof.Machine.execRecallTicket port tag body s
  | .loadPorts port tag body => Sys2Proof.Machine.execLoadPorts port tag body s
  | .loadGroups port tag body => Sys2Proof.Machine.execLoadGroups port tag body s
  | .loadTaxes port tag body => Sys2Proof.Machine.execLoadTaxes port tag body s
  | .loadItems port tag body => Sys2Proof.Machine.execLoadItems port tag body s
  | .loadStations port tag body => Sys2Proof.Machine.execLoadStations port tag body s
  | .loadTimers port tag body => Sys2Proof.Machine.execLoadTimers port tag body s
  | .setStock port tag body => Sys2Proof.Machine.execSetStock port tag body s
  | .adjustStock port tag body => Sys2Proof.Machine.execAdjustStock port tag body s
  | .readItems port tag body => Sys2Proof.Machine.execReadItems port tag body s
  | .collect port tag body => Sys2Proof.Machine.execCollect port tag body s
  | .discardTab port tag body => Sys2Proof.Machine.execDiscardTab port tag body s
  | .cancelTicket port tag body => Sys2Proof.Machine.execCancelTicket port tag body s
  | .flushTabs port tag body => Sys2Proof.Machine.execFlushTabs port tag body s
  | .auditTabs port tag body => Sys2Proof.Machine.execAuditTabs port tag body s
  | .checkSplit port tag body => Sys2Proof.Machine.execCheckSplit port tag body s
  | .resetPort port tag body => Sys2Proof.Machine.execResetPort port tag body s
  | .saveConfig port tag body => Sys2Proof.Machine.execSaveConfig port tag body s
  | .noticeMask port tag body => Sys2Proof.Machine.execNoticeMask port tag body s
  | .status port tag body => Sys2Proof.Machine.execStatus port tag body s
  | .describe port tag body => Sys2Proof.Machine.execDescribe port tag body s
  | .ackTimerExpiry port => Sys2Proof.Machine.execAckTimerExpiry port s
  | .holdExpiry port => Sys2Proof.Machine.execHoldExpiry port s
  | .imagePeriodExpiry => Sys2Proof.Machine.execImagePeriodExpiry s
  | .memoryOpStart => Sys2Proof.Machine.execMemoryOpStart s
  | .fetchComplete read => Sys2Proof.Machine.execFetchComplete read s
  | .fetchAbandoned => Sys2Proof.Machine.execFetchAbandoned s
  | .writeBackComplete => Sys2Proof.Machine.execWriteBackComplete s
  | .writeBackAbandoned left => Sys2Proof.Machine.execWriteBackAbandoned left s
  | .auditReadComplete read => Sys2Proof.Machine.execAuditReadComplete read s
  | .auditReadAbandoned => Sys2Proof.Machine.execAuditReadAbandoned s
  | .splitCheckEnd passed => Sys2Proof.Machine.execSplitCheckEnd passed s
  | .saveEraseComplete => Sys2Proof.Machine.execSaveEraseComplete s
  | .saveNodeVerified readBack => Sys2Proof.Machine.execSaveNodeVerified readBack s
  | .saveFault left => Sys2Proof.Machine.execSaveFault left s
  | .saveTimeout left => Sys2Proof.Machine.execSaveTimeout left s
  | .frameSent port => Sys2Proof.Machine.execFrameSent port s
  | .waiterExecutes slot => Sys2Proof.Machine.execWaiterExecutes slot s
  | .ticketSend port => Sys2Proof.Machine.execTicketSend port s
  | .urgentImage port => Sys2Proof.Machine.execUrgentImage port s
  | .trickleImage port => Sys2Proof.Machine.execTrickleImage port s
  | .availabilityOffer => Sys2Proof.Machine.execAvailabilityOffer s
  | .availabilityImageFrame port => Sys2Proof.Machine.execAvailabilityImageFrame port s
  | .noticeSend => Sys2Proof.Machine.execNoticeSend s

end Sys2Proof.Machine
end

