-- ==== Sys2Proof/Machine/Step.lean ====
section
/-! DEFINITION. One step of the switch: the command at the front of its queue, or a millisecond of idling. -/

namespace Sys2Proof.Machine

/-- One step. With a command waiting, the front one leaves the queue and has its effect. With none waiting the switch idles, and the
model's clock moves on by 1 ms (DESIGN CHOICE, assumption 5). -/
def step (s : State) : Host.Outcome State Fault Refusal :=
  match s.pending with
  | [] => .next { s with now := s.now + 1 }
  | c :: rest => exec c { s with pending := rest }

/-- The state with the command that a word spells at the front of its queue; no word of the table spells one (assumption 19). -/
def State.withFetchWord (s : State) (nbits w : Nat) : State :=
  match decodeTableWord nbits w with
  | some c => { s with pending := c :: s.pending }
  | none => s

end Sys2Proof.Machine
end

