-- ==== Sys2Proof/Safety.lean ====
section
/-! DEFINITION. What a good state of the switch is, in the terms statements use: the capacities of chapter 00 and of R48, R61, R70, R80,
R127, R148 and R168 kept, the tables in their one form and in agreement with one another (R4, R5, R10, R28, R66, R101), the records in range
(R56, R131), and a step that completes. -/

namespace Sys2Proof.Machine

/-- A step that is neither a fault nor a refusal. -/
def Completes (s : State) : Prop := ∃ t, step s = .next t

/-- Every sparse table stands in its one form: keys rising, and no directory entry listed that is the formatted one. -/
structure TablesInForm (s : State) : Prop where
  tabMemory : tableRising s.tabMemory = true
  items     : tableRising s.items = true
  directory : tableRising s.directory = true
  listed    : ∀ e ∈ s.directory, e.2 ≠ DirEntry.formatted

/-- Frames of a port's transmit queue other than replies of the request slot (R148). -/
def otherFrames (x : LanePort) : List TxFrame := x.frames.filter (fun f => f.source ≠ .slotReply)

/-- Frames other than the slot's reply take at most 7 entries of every transmit queue (R148). -/
def TransmitRoom (s : State) : Prop := ∀ p : Port, (otherFrames (s.port p)).length ≤ 7

/-- The capacities of one station (R64, R70, R80, R166). -/
structure StationFits (x : Station) : Prop where
  queue   : x.queue.length ≤ 24
  sent    : x.sent.length ≤ x.window
  window  : 1 ≤ x.window ∧ x.window ≤ 4
  recalls : x.recalls.length ≤ 4

/-- The kitchen unit's capacities (R64, R70, R80); every live ticket has a number of its own and stands in one place, the queue of its own
station or the overflow list (R66); and the counter is a ticket number (R67). -/
structure KitchenFits (s : State) : Prop where
  stations : ∀ p : Port, StationFits (s.station p)
  overflow : s.overflow.length ≤ 48
  numbers  : (s.liveTickets.map Ticket.number).Nodup
  places   : ∀ (p : Port) (x : Ticket), x ∈ (s.station p).queue → x.station = p
  counter  : 1 ≤ s.ticketCounter ∧ s.ticketCounter ≤ 65535

/-- The other lists' capacities: notices (R168), availability (R61), wait lists (R19, R21), the engine wait list (R127, R128), and the
recency order over all 8 slots (R20). -/
structure ListsFit (s : State) : Prop where
  notices   : s.notices.length ≤ 16
  availList : s.availList.length ≤ 32
  waits     : ∀ i : SlotId, (s.slot i).waits.length ≤ 4
  engine    : s.engineWait.length ≤ 4
  running   : s.engineWait ≠ [] → ∃ cause, s.check = .running cause
  recency   : s.recency.Perm allSlots

/-- A tracking part whose figures balance (R48). -/
def Tracking.balanced (t : Tracking) : Prop := t.stock + t.sold = t.level ∧ t.level ≤ 9999

/-- Every listed item's stock balances (R48). -/
def StockBalances (s : State) : Prop := ∀ e ∈ s.items, ∀ t, e.2.tracking = some t → t.balanced

/-- A record whose figures are in range: its total is at most 9,999,999 (R56) and no share is credited more than its due (R131). -/
def RecordFits (r : TabRecord) : Prop :=
  r.totals.total ≤ Config.totalLimit ∧ ∀ plan, r.plan = some plan → ∀ x ∈ plan.shares, x.credited ≤ x.due

/-- Every record in the cache and in tab memory is in range. -/
structure RecordsFit (s : State) : Prop where
  cache  : ∀ (i : SlotId) (r : TabRecord), (s.slot i).record = some r → RecordFits r
  memory : ∀ e ∈ s.tabMemory, RecordFits e.2.record

/-- The record that a command brings from the memory port, if it brings one (assumption 3). -/
def broughtRecord : Instr → Option TabRecord
  | .fetchComplete (.delivers cell) => some cell.record
  | .writeBackAbandoned (some cell) => some cell.record
  | _ => none

/-- The tab a request waits for; 0 for an ORDER that opens one (R24). -/
def requestTab : TabRequest → Nat
  | .order tab _ _ | .void tab _ | .readTab tab _ | .split tab _ | .cancelSplit tab | .tender tab _ _ _ | .resume tab
  | .collect tab | .discardTab tab => tab

/-- What a slot holds, by its state (R19, R28): an EMPTY slot nothing; a READY or WRITING slot a record of its tab; only a WRITING slot has
something incoming; and those who wait, wait for its tab or for what comes in. -/
structure SlotSound (x : CacheSlot) : Prop where
  empty    : x.state = .empty → x = CacheSlot.cleared
  tab      : x.state ≠ .empty → x.tab ≠ none
  record   : x.state = .ready ∨ x.state = .writing → ∃ r, x.record = some r ∧ x.tab = some r.tab
  incoming : x.state ≠ .writing → x.incoming = .none
  own      : ∀ t, x.incoming = .tab t → x.tab ≠ some t
  waits    : ∀ w ∈ x.waits, match x.incoming with
    | .none => x.tab = some (requestTab w.request)
    | .tab t => requestTab w.request = t
    | .new => requestTab w.request = 0

/-- The operations that wait for the memory controller or run there (R29). -/
def memoryOps (s : State) : List MemOp := s.memQueue ++ (s.memRunning.map RunningOp.op).toList

/-- Each slot that fetches or writes has its one operation at the controller, and no other slot has any (R19, R29). -/
structure OperationsAgree (s : State) : Prop where
  fetches : ∀ i : SlotId, MemOp.fetch i ∈ memoryOps s ↔ (s.slot i).state = .fetching
  writes  : ∀ i : SlotId, MemOp.writeBack i ∈ memoryOps s ↔ (s.slot i).state = .writing
  once    : (memoryOps s).Nodup
  audits  : ∀ t, MemOp.auditRead t ∉ s.memQueue

/-- The tables agree with one another. -/
structure TablesAgree (s : State) : Prop where
  /-- The free list holds each FREE tab once (R4). -/
  freeList   : s.freeList.Nodup ∧ ∀ t, t ∈ s.freeList ↔ isTab t = true ∧ (s.dir t).state = .free
  /-- The closed list holds each CLOSED tab once (R5). -/
  closedList : s.closedList.Nodup ∧ ∀ t, t ∈ s.closedList ↔ (s.dir t).state = .closed
  /-- A FREE tab's entry is as after the format (R2, R8), and so is every entry that is no tab's (R1) and, while the part is STARTING, every
  entry (R161). -/
  free       : ∀ t, (s.dir t).state = .free ∨ isTab t = false ∨ s.phase = .starting → s.dir t = DirEntry.formatted
  /-- A tab with a holder is TENDERING, and its holder's entry in the hold table names it (R101). -/
  holder     : ∀ t p, (s.dir t).holder = some p → (s.dir t).state = .tendering ∧ (s.hold p).map Hold.tab = some t
  /-- An entry of the hold table names a tab whose holder its till is (R101). -/
  hold       : ∀ p h, s.hold p = some h → (s.dir h.tab).holder = some p
  /-- A tab's live-ticket count is the number of its live tickets (R10). -/
  live       : ∀ t, (s.dir t).live = (s.liveTickets.filter (fun x => x.tab = t)).length
  /-- A recall entry that is not gone carries a tab that is not FREE (R8, R80). -/
  recalls    : ∀ p, ∀ e ∈ (s.station p).recalls, e.gone = false → (s.dir e.ticket.tab).state ≠ .free
  /-- A tab's entry names a slot exactly when the slot holds the tab or will fetch it next (R21, R28). -/
  slot       : ∀ t i, (s.dir t).slot = some i ↔ (s.slot i).tab = some t ∨ (s.slot i).incoming = .tab t
  /-- A DAMAGED tab is in no slot (R9, R28). -/
  damaged    : ∀ t, (s.dir t).state = .damaged → (s.dir t).slot = none
  slots      : ∀ i : SlotId, SlotSound (s.slot i)
  operations : OperationsAgree s

/-- A good state: all of the above. -/
structure Good (s : State) : Prop where
  tables  : TablesInForm s
  room    : TransmitRoom s
  kitchen : KitchenFits s
  lists   : ListsFit s
  stock   : StockBalances s
  records : RecordsFit s
  agree   : TablesAgree s

/-- A run of steps from a state: each step completes and ends in a good state. -/
def SafeRun : Nat → State → Prop
  | 0, s => Good s
  | k + 1, s => Good s ∧ ∃ t, step s = .next t ∧ SafeRun k t

end Sys2Proof.Machine
end

