-- ==== Sys2Proof/Certificates/Slice0/Obligations.lean ====
section
/-! DEFINITION. The statements for the provers, and the few words they are written in. A statement about a request says, as a rule:
under conditions on the state and the operands alone, `exec` answers a next state; what that state holds; the reply at the
request's port; and that everything else is as it was (`{ t with f := s.f } = s`: `t` is `s` but for the fields named). -/

namespace Sys2Proof.Statements

open Sys2Proof.Machine

/-- A request of this kind at this port passes the checks of R145 and R146: its role may send it, the part is READY, and its request
slot is free. -/
abbrev Admitted (s : State) (p : Port) (k : Kind) : Prop :=
  s.phase = .ready ∧ maySend (s.role p) k = true ∧ (s.port p).request = none

/-- A request of the office controller on port 0 passes those checks. -/
abbrev OfficeAdmitted (s : State) : Prop :=
  s.phase = .ready ∧ s.role 0 = .uplink ∧ (s.port 0).request = none

/-- The REPLY frame of a request taken at a port (R146, R155). -/
def replyFrame (k : Kind) (tag : Byte) (status : Status) (fields : List Byte) : TxFrame :=
  { kind := .reply, tag := tag, body := status.byte :: k.byte :: fields, source := .slotReply }

/-- A port that has taken a request and placed its reply (R143, R146, R148). -/
def repliedPort (x : LanePort) (k : Kind) (tag : Byte) (status : Status) (fields : List Byte) : LanePort :=
  { x with discarding := false, assembly := [], request := some { kind := k, tag := tag } }.put
    (replyFrame k tag status fields)

/-- In `t` port `p` is as the request and its reply leave it. -/
def RepliedAt (s t : State) (p : Port) (k : Kind) (tag : Byte) (status : Status) (fields : List Byte) : Prop :=
  t.port p = repliedPort (s.port p) k tag status fields

/-- Every port but this one is as it was. -/
def OtherPortsKept (s t : State) (p : Port) : Prop := ∀ q, q ≠ p → t.port q = s.port q

/-- A port that has taken a request whose reply is still to come (R146). -/
def waitingPort (x : LanePort) (k : Kind) (tag : Byte) : LanePort :=
  { x with discarding := false, assembly := [], request := some { kind := k, tag := tag } }

/-- The switch after it has taken a request at a port, before the request's block acts on it (R146). -/
def afterTaking (s : State) (p : Port) (k : Kind) (tag : Byte) : State := s.setPort p (waitingPort (s.port p) k tag)

/-- `v` with the reply of a request that it has taken placed at the request's port. -/
def withReply (v : State) (p : Port) (k : Kind) (tag : Byte) (status : Status) (fields : List Byte) : State :=
  v.setPort p ((v.port p).put (replyFrame k tag status fields))

/-- A port after a frame of the switch's own has entered its transmit queue (R150). -/
def ownFramePort (x : LanePort) (k : Kind) (body : List Byte) (source : TxSource) : LanePort :=
  { x.put { kind := k, tag := BitVec.ofNat 8 x.tagCount, body := body, source := source } with
    tagCount := nextTag x.tagCount }

/-- The request is answered, and nothing but its port's lane state has changed: the whole frame of a request that only replies. -/
def OnlyReplied (s t : State) (p : Port) (k : Kind) (tag : Byte) (status : Status) (fields : List Byte) : Prop :=
  t = s.setPort p (repliedPort (s.port p) k tag status fields)

/-- A till's tab stands in a READY slot with an empty wait list, where a request of that till executes at once (R21, R100). -/
abbrev AtReadySlot (s : State) (p : Port) (tab : Nat) (i : SlotId) (r : TabRecord) : Prop :=
  isTab tab = true ∧ s.sameGroup p tab = true ∧ (s.dir tab).slot = some i ∧ (s.slot i).state = .ready ∧
    (s.slot i).tab = some tab ∧ (s.slot i).record = some r ∧ (s.slot i).waits = [] ∧ p ∉ s.engineWait ∧ r.tab = tab

/-- The recency order with a slot at its most recent end (R20). -/
def touched (s : State) (i : SlotId) : List SlotId := s.recency.filter (fun j => j ≠ i) ++ [i]

/-- A slot whose working record has changed (R26). -/
def changedSlot (x : CacheSlot) (r : TabRecord) : CacheSlot := { x with record := some r, dirty := true }

/-- In `t` this slot is `x` and every other slot is as it was in `s`. -/
def SlotBecomes (s t : State) (i : SlotId) (x : CacheSlot) : Prop :=
  t.slot i = x ∧ ∀ j, j ≠ i → t.slot j = s.slot j

/-- In `t` this tab's directory entry is `e` and every other entry is as it was in `s`. -/
def EntryBecomes (s t : State) (tab : Nat) (e : DirEntry) : Prop :=
  t.dir tab = e ∧ ∀ u, u ≠ tab → t.dir u = s.dir u

/-- In `t` this port's hold is `h` and every other hold is as it was in `s`. -/
def HoldBecomes (s t : State) (p : Port) (h : Option Hold) : Prop :=
  t.hold p = h ∧ ∀ q, q ≠ p → t.hold q = s.hold q

/-- In `t` this port's station is `x` and every other station is as it was in `s`. -/
def StationBecomes (s t : State) (p : Port) (x : Station) : Prop :=
  t.station p = x ∧ ∀ q, q ≠ p → t.station q = s.station q

/-- The amounts stored in a record are those of its lines: class nets add up the ACTIVE lines, a class with no net has no tax, a tab
with no net no service, and the total is the sum (R13, R113). -/
structure RecordSound (r : TabRecord) : Prop where
  net     : ∀ c : TaxClass, r.totals.amounts.net[c.val] = classNet c (chargesOf r.lines)
  tax     : ∀ c : TaxClass, r.totals.amounts.net[c.val] = 0 → r.totals.amounts.tax[c.val] = 0
  service : amountsNet r.totals.amounts = 0 → r.totals.amounts.service = 0
  total   : r.totals.total = amountsSum r.totals.amounts

/-- A SPLIT's fields as R115 admits them. -/
def SpecAdmitted : SplitSpec → Prop
  | .even n => 1 ≤ n ∧ n ≤ 16
  | .byItem n _ entries =>
    1 ≤ n ∧ n ≤ 16 ∧ ∀ e ∈ entries, 1 ≤ e.share ∧ e.share ≤ n ∧ 1 ≤ e.portions ∧ e.portions ≤ 15
  | .byAmount n amounts => 2 ≤ n ∧ n ≤ 16 ∧ amounts.length = n - 1

/-- The command that a frame of this kind is, for the kinds that arrive at the switch. -/
def frameCommand (p : Port) (tag : Byte) (body : List Byte) : Kind → Option Instr
  | .order => some (.order p tag body) | .void => some (.void p tag body) | .readTab => some (.readTab p tag body)
  | .listTabs => some (.listTabs p tag body) | .split => some (.split p tag body)
  | .cancelSplit => some (.cancelSplit p tag body) | .tender => some (.tender p tag body)
  | .resume => some (.resume p tag body) | .availQuery => some (.availQuery p tag body)
  | .hello => some (.hello p tag body) | .taken => some (.taken p tag body) | .start => some (.start p tag body)
  | .bump => some (.bump p tag body) | .recallTicket => some (.recallTicket p tag body)
  | .loadPorts => some (.loadPorts p tag body) | .loadGroups => some (.loadGroups p tag body)
  | .loadTaxes => some (.loadTaxes p tag body) | .loadItems => some (.loadItems p tag body)
  | .loadStations => some (.loadStations p tag body) | .loadTimers => some (.loadTimers p tag body)
  | .setStock => some (.setStock p tag body) | .adjustStock => some (.adjustStock p tag body)
  | .readItems => some (.readItems p tag body) | .collect => some (.collect p tag body)
  | .discardTab => some (.discardTab p tag body) | .cancelTicket => some (.cancelTicket p tag body)
  | .flushTabs => some (.flushTabs p tag body) | .auditTabs => some (.auditTabs p tag body)
  | .checkSplit => some (.checkSplit p tag body) | .resetPort => some (.resetPort p tag body)
  | .saveConfig => some (.saveConfig p tag body) | .noticeMask => some (.noticeMask p tag body)
  | .status => some (.status p tag body) | .describe => some (.describe p tag body)
  | .ticket | .withdraw | .image | .reply | .availability | .notice => none

/-- A port that has seen a delimiter (R143). -/
def delimited (x : LanePort) : LanePort := { x with discarding := false, assembly := [] }

/-- A port that has placed an answer to a frame that was never taken, if it had room for it (R147). -/
def answeredPort (x : LanePort) (status : Status) (kind tag : Byte) : LanePort :=
  if x.hasRoom then
    (delimited x).put { kind := .reply, tag := tag, body := [status.byte, kind], source := .answer }
  else delimited x

/-! #### Availability -/

/-- The availability changes of an event that touched these items, between the item tables of `s` and `t` (R51): one for each item whose
availability at the end differs from that at the start, in ascending code, each with the stock at the end. -/
def ChangesOf (s t : State) (codes : List Nat) (changes : List AvailEntry) : Prop :=
  (changes.map AvailEntry.item).Pairwise (· < ·) ∧
  ∀ e, e ∈ changes ↔ e.item ∈ codes ∧ availabilityOf (s.item e.item) ≠ availabilityOf (t.item e.item) ∧
    e.availability = availabilityOf (t.item e.item) ∧ e.stock = stockOf (t.item e.item)

/-- The availability changes of an event that began in `s` and touched these items are latched one after another (R51, R61) upon what
the event has made of the ports and the notices in `v`; then the event's request is answered at its port. -/
def LatchedAndReplied (s v t : State) (codes : List Nat) (p : Port) (k : Kind) (tag : Byte) (status : Status)
    (fields : List Byte) : Prop :=
  ∃ changes, ChangesOf s t codes changes ∧
    let u := changes.foldl State.latchChange v
    t.availList = u.availList ∧ t.notices = u.notices ∧ t.dropped = u.dropped ∧
    t.port p = repliedPort (u.port p) k tag status fields ∧ ∀ q, q ≠ p → t.port q = u.port q

/-! #### The kitchen unit -/

/-- A station whose sent list a ticket has left (R75): when it was the head the ack timer restarts for the next, or stops. -/
def leftSent (s : State) (x : Station) (n : Nat) : Station :=
  { x with
    sent := x.sent.erase n,
    ackTimer :=
      if x.sent.head? = some n then (if x.sent.erase n = [] then none else some (s.now + 100 * s.timers.ack))
      else x.ackTimer }

/-- The overflow tickets of a station in the order in which R72 promotes them: its rush tickets, and then the others, each kind from the
longest in the list on. -/
def promotionOrder (overflow : List Ticket) (p : Port) : List Ticket :=
  overflow.filter (fun x => x.station = p && x.rush) ++ overflow.filter (fun x => x.station = p && !x.rush)

/-- `t` is `s` after re-targeting (R91) and promotion at every station (R72): each queue has taken in as many of its overflow tickets as it
has room for, at the positions of R71, those have left the overflow list, and nothing else has changed. -/
structure Promoted (s t : State) : Prop where
  queue : ∀ p, t.station p = { s.station p with
    queue := ((promotionOrder (s.overflow.map s.retargeted) p).take (24 - (s.station p).queue.length)).foldl enterQueue
      (s.station p).queue }
  left  : ∀ p, promotionOrder t.overflow p =
    (promotionOrder (s.overflow.map s.retargeted) p).drop (24 - (s.station p).queue.length)
  order : t.overflow.Sublist (s.overflow.map s.retargeted)
  rest  : { t with stations := s.stations, overflow := s.overflow } = s

/-- `u` is `s` after a live ticket was removed from its place, before a WITHDRAW is offered (R84, R85, R10): from the overflow list, or from
its station's queue and sent list with promotion following. Its tab's count falls by 1. -/
structure TicketRemoved (s u : State) (x : Ticket) : Prop where
  fromOverflow : (∃ y ∈ s.overflow, y.number = x.number) →
    u = { s.setDir x.tab { s.dir x.tab with live := (s.dir x.tab).live - 1 } with
      overflow := s.overflow.filter (fun y => y.number ≠ x.number) }
  fromQueue : (∀ y ∈ s.overflow, y.number ≠ x.number) →
    Promoted ((s.setStation x.station { leftSent s (s.station x.station) x.number with
      queue := (s.station x.station).queue.filter (fun y => y.number ≠ x.number) }).setDir x.tab
        { s.dir x.tab with live := (s.dir x.tab).live - 1 }) u

/-- `t` is `u` after the WITHDRAW of a removed ticket was offered (R84): to a STATION port when the ticket was ever transmitted; without room
there the station's resync counter becomes 3 instead. -/
structure WithdrawOffered (u t : State) (x : Ticket) : Prop where
  sent   : x.everTransmitted = true → u.role x.station = .station → (u.port x.station).hasRoom = true →
    t = u.setPort x.station (ownFramePort (u.port x.station) .withdraw (num2 x.number) .own)
  noRoom : x.everTransmitted = true → u.role x.station = .station → (u.port x.station).hasRoom = false →
    t = u.setStation x.station { u.station x.station with resync := 3 }
  none   : x.everTransmitted = false ∨ u.role x.station ≠ .station → t = u

/-- A station that has gone dark, before its tickets move (R89). -/
def darkened (x : Station) : Station :=
  { x with
    ready := false, sent := [], ackTimer := none,
    queue := x.queue.map (fun y => if y.number ∈ x.sent then { y with state := .queued } else y) }

/-- A ticket that moves to an alternate (R90). -/
def arrivesAt (a : Port) (x : Ticket) : Ticket := { x with state := .queued, station := a, everTransmitted := false }

/-- `t` is `s` after the dark handling of a station, which moved this many tickets (R89, R90, R91): with no READY alternate none moves; with
one its unstarted tickets go to the alternate's queue while that has room, then to the overflow list while that has room, and the rest stay. -/
def DarkHandled (s t : State) (p : Port) (moved : Nat) : Prop :=
  (s.readyAlternate p = none → moved = 0 ∧ Promoted (s.setStation p (darkened (s.station p))) t) ∧
  (∀ a, s.readyAlternate p = some a → ((s.station p).queue.map Ticket.number).Nodup →
    let dark := darkened (s.station p)
    let going := dark.queue.filter (fun x => !x.started)
    let toQueue := going.take (24 - (s.station a).queue.length)
    let toOverflow := (going.drop (24 - (s.station a).queue.length)).take (48 - s.overflow.length)
    moved = toQueue.length + toOverflow.length ∧
    Promoted { (s.setStation p { dark with queue := dark.queue.filter (fun x => x ∉ toQueue ++ toOverflow) }).setStation a
        { s.station a with queue := (toQueue.map (arrivesAt a)).foldl enterQueue (s.station a).queue } with
      overflow := s.overflow ++ toOverflow.map (arrivesAt a) } t)

/-- The tickets of an order that have a place, in the order in which they were judged (R55). -/
def placedTickets (plan : OrderPlan) : List (Place × List PassedLine) :=
  plan.tickets.filterMap (fun x => x.place.map (fun y => (y, x.lines)))

/-- A ticket as an order creates it (R65, R68). -/
def newTicket (tab : Nat) (origin : Port) (rush : Bool) (number : Nat → Nat) (n : Nat) (x : Place × List PassedLine) : Ticket :=
  { number := n, original := n, tab := tab, origin := origin, station := x.1.target, rush := rush,
    lines := x.2.map (fun l => { item := l.item, quantity := l.quantity, modifier := l.modifier, line := number l.index }),
    revision := 0, state := .queued, started := false, everTransmitted := false }

/-- The kitchen after tickets have been created at their places one after another, each setting the counter above its number (R67, R68). -/
def afterTickets (s : State) (tickets : List (Place × Ticket)) : State :=
  tickets.foldl (fun acc x => { acc.placeTicket x.1 x.2 with ticketCounter := nextNumber x.2.number }) s

/-- In `t` the kitchen holds the new tickets of an order with these numbers, one for each ticket that has a place: each number is the one
R67 gives when the tickets before it have been created; each ticket enters its target's queue, or the tail of the overflow list (R68). -/
def TicketsCreated (s t : State) (tab : Nat) (origin : Port) (rush : Bool) (number : Nat → Nat) (plan : OrderPlan)
    (numbers : List Nat) : Prop :=
  let new := List.zipWith (fun n x => (x.1, newTicket tab origin rush number n x)) numbers (placedTickets plan)
  numbers.length = (placedTickets plan).length ∧
  (∀ k n, numbers[k]? = some n → n = (afterTickets s (new.take k)).freshNumber) ∧
  t.stations = (afterTickets s new).stations ∧ t.overflow = (afterTickets s new).overflow ∧
  t.ticketCounter = (afterTickets s new).ticketCounter

/-! #### Holds and port resets -/

/-- `t` is `s` after a hold has ended by expiry, port reset or change of group (R106, R109, R111): the hold and the holder are gone; with
paid-in-part clear the tab is OPEN and its plan is removed if its record stands in a READY slot, which is then dirty; with paid-in-part set
the tab keeps its state and plan; a HOLD notice is raised; nothing else changes. -/
structure HoldEnded (s t : State) (p : Port) (h : Hold) (cause : HoldCause) : Prop where
  hold    : HoldBecomes s t p none
  paid    : (s.dir h.tab).paidInPart = true →
    EntryBecomes s t h.tab { s.dir h.tab with holder := none } ∧ t.slots = s.slots ∧
    t.notices = (s.raise (.hold p h.tab cause (s.dir h.tab).state true)).notices ∧
    t.dropped = (s.raise (.hold p h.tab cause (s.dir h.tab).state true)).dropped
  unpaid  : (s.dir h.tab).paidInPart = false →
    EntryBecomes s t h.tab { s.dir h.tab with holder := none, state := .opened } ∧
    t.notices = (s.raise (.hold p h.tab cause .opened false)).notices ∧
    t.dropped = (s.raise (.hold p h.tab cause .opened false)).dropped
  plan    : (s.dir h.tab).paidInPart = false → ∀ i r, (s.dir h.tab).slot = some i → (s.slot i).state = .ready →
    (s.slot i).tab = some h.tab → (s.slot i).record = some r → r.plan ≠ none →
    SlotBecomes s t i (changedSlot (s.slot i) { r with plan := none })
  noPlan  : (s.dir h.tab).paidInPart = false →
    (∀ i r, (s.dir h.tab).slot = some i → (s.slot i).state = .ready → (s.slot i).tab = some h.tab →
      (s.slot i).record = some r → r.plan = none) → t.slots = s.slots
  rest    : { t with
    holds := s.holds, directory := s.directory, slots := s.slots, notices := s.notices, dropped := s.dropped } = s

/-- `t` is `s` after a port reset (R151): the lane port is as after part reset and its request is gone from every wait list (R42); a TILL
port's hold is released with cause PORT-RESET (R111); the recall list is empty, the station DARK after the dark handling, its resync counter 3,
with a STATION notice if it was READY (R93). -/
def PortWasReset (s t : State) (q : Port) : Prop :=
  ∃ b c moved,
    let a := { s.setPort q LanePort.fresh with
      slots := s.slots.map (fun x => { x with waits := x.waits.filter (fun w => w.port ≠ q) }),
      engineWait := s.engineWait.filter (fun r => r ≠ q) }
    (∀ h, (s.role q).isTill = true → s.hold q = some h → HoldEnded a b q h .portReset) ∧
    ((s.role q).isTill = false ∨ s.hold q = none → b = a) ∧
    DarkHandled (b.setStation q { b.station q with recalls := [], lastBump := none }) c q moved ∧
    let d := c.setStation q { c.station q with resync := 3 }
    t = if (s.station q).ready then d.raise (.station q false .portReset moved (d.station q).queue.length) else d

/-- `t` is `s` after one entry of a LOAD PORTS (R141, R111): an entry that changes nothing does nothing; one that gives a till another group
releases its hold with cause GROUP-CHANGE; one that changes a role resets the port. -/
def PortEntryLoaded (s t : State) (e : Port × PortRole) : Prop :=
  (s.role e.1 = e.2 → t = s) ∧
  (s.role e.1 ≠ e.2 → (s.role e.1).isTill = true → e.2.isTill = true →
    ∃ u, (∀ h, s.hold e.1 = some h → HoldEnded s u e.1 h .groupChange) ∧ (s.hold e.1 = none → u = s) ∧
      t = u.setRole e.1 e.2) ∧
  (s.role e.1 ≠ e.2 → ¬ ((s.role e.1).isTill = true ∧ e.2.isTill = true) →
    ∃ u, PortWasReset s u e.1 ∧ t = u.setRole e.1 e.2)

/-- `t` is `s` after the entries of a LOAD PORTS have been applied in the order in which they stand (R165). -/
def PortEntriesLoaded : State → List (Port × PortRole) → State → Prop
  | s, [], t => t = s
  | s, e :: rest, t => ∃ u, PortEntryLoaded s u e ∧ PortEntriesLoaded u rest t

/-! #### Requests at the cache -/

/-- What a till's frame asks of an existing tab, by its kind and body (R52, R58, R17, R115, R126, R132, R108). -/
def tabRequestOf (k : Kind) (body : List Byte) : Option (Nat × TabRequest) :=
  match k with
  | .order => (readOrder body).bind (fun x => if x.1 = 0 then none else some (x.1, .order x.1 x.2.1 x.2.2))
  | .void => (readVoid body).map (fun x => (x.1, .void x.1 x.2))
  | .readTab => (readReadTab body).map (fun x => (x.1, .readTab x.1 x.2))
  | .split => (readSplit body).map (fun x => (x.1, .split x.1 x.2))
  | .cancelSplit => (readNumber body).map (fun x => (x, .cancelSplit x))
  | .tender => (readTender body).map (fun f => (f.tab, .tender f.tab f.share f.method f.amount))
  | .resume => (readNumber body).map (fun x => (x, .resume x))
  | _ => none

/-- The row of R102's table for a request's kind. -/
def rowOf : Kind → Option RequestRow
  | .order | .void => some .orderOrVoid
  | .split => some .split
  | .cancelSplit | .tender => some .cancelOrTender
  | .resume => some .resume
  | .readTab => some .readTab
  | _ => none

/-- A till's request on an existing tab arrives and passes the checks of its port. -/
abbrev Arrives (s : State) (p : Port) (k : Kind) (tag : Byte) (body : List Byte) (c : Instr) (tab : Nat)
    (request : TabRequest) : Prop :=
  frameCommand p tag body k = some c ∧ body.length ≤ maxBody ∧ Admitted s p k ∧ (s.role p).isTill = true ∧
    tabRequestOf k body = some (tab, request)

/-- Such a request is judged good when it is taken and goes to the cache (R1, R100). -/
abbrev ReachesCache (s : State) (p : Port) (k : Kind) (tag : Byte) (body : List Byte) (c : Instr) (tab : Nat)
    (request : TabRequest) : Prop :=
  Arrives s p k tag body c tab request ∧ isTab tab = true ∧ (s.dir tab).state ≠ .free ∧ (s.dir tab).state ≠ .damaged ∧
    s.sameGroup p tab = true

/-- The wait list of a slot holds requests for this tab, or for the tab it will fetch next, which a further request joins (R21). -/
def JoinsAt (s : State) (tab : Nat) (i : SlotId) : Prop :=
  (s.dir tab).slot = some i ∧
  (((s.slot i).tab = some tab ∧ ((s.slot i).state = .fetching ∨ ((s.slot i).state = .ready ∧ (s.slot i).waits ≠ []) ∨
      ((s.slot i).state = .writing ∧ (s.slot i).incoming = .none))) ∨
    ((s.slot i).tab ≠ some tab ∧ (s.slot i).incoming = .tab tab))

/-- A request on an existing tab, from a till or from the office, is judged good when it is taken and goes to the cache: beside those of the tills
the office's READ TAB, its DISCARD TAB of an OPEN tab, and its COLLECT with the tab that R138 chooses. -/
def AsksCache (s : State) (p : Port) (k : Kind) (tag : Byte) (body : List Byte) (c : Instr) (tab : Nat)
    (request : TabRequest) : Prop :=
  ReachesCache s p k tag body c tab request ∨
  (p = 0 ∧ OfficeAdmitted s ∧ frameCommand p tag body k = some c ∧ body.length ≤ maxBody ∧
    ((k = .readTab ∧ tabRequestOf k body = some (tab, request) ∧ isTab tab = true ∧ (s.dir tab).state ≠ .free ∧
        (s.dir tab).state ≠ .damaged) ∨
      (k = .discardTab ∧ readNumber body = some tab ∧ request = .discardTab tab ∧ isTab tab = true ∧
        (s.dir tab).state = .opened) ∨
      (k = .collect ∧ body = [] ∧ request = .collect tab ∧ s.closedList.find? (fun u => (s.dir u).live = 0) = some tab)))

/-- What a slot holds when it becomes READY with a record of its tab (R27): a plan that an OPEN tab no longer allows is gone, and the slot then
dirty; nothing comes in. -/
def readySlot (s : State) (x : CacheSlot) (tab : Nat) (r : TabRecord) (dirty : Bool) (waits : List Waiter) : CacheSlot :=
  { x with
    state := .ready, incoming := .none, waits := waits,
    record := some (if (s.dir tab).state = .opened then { r with plan := none } else r),
    dirty := dirty || decide ((s.dir tab).state = .opened ∧ r.plan ≠ none) }

/-- Tab memory with what an abandoned write has left at its tab number (R30). -/
def leftBehind (s : State) (tab : Nat) : Option StoredRecord → State
  | none => s
  | some cell => s.store tab cell

/-- In `t` the waiters of a slot have been answered with a status (R28, R33, R35), each at its own port, and no other port has changed. -/
def Answered (s t : State) (waits : List Waiter) (status : Status) : Prop :=
  (waits.map Waiter.port).Nodup →
    (∀ w ∈ waits, ∀ k, (s.port w.port).request = some k →
      t.port w.port = (s.port w.port).put (replyFrame k.kind k.tag status (requestDetail w.request).bytes)) ∧
    ∀ q, (q ∉ waits.map Waiter.port ∨ (s.port q).request = none) → t.port q = s.port q

/-- What stands in a node's place when these bytes were left or read there (R174): no more than the node's bytes, and erased ones where they
are fewer. -/
def nodePlace (node bytes : List Byte) : List Byte :=
  bytes.take node.length ++ List.replicate (node.length - bytes.length) Config.erasedByte

/-- `part` is a part of the chain that stood in the flash (R174): each of its bytes as it was, where `left` has it too, or erased, and nothing
beyond it. -/
def PartOfChain (flash left part : List Byte) : Prop :=
  part.length = flash.length ∧
  ∀ n b, flash[n]? = some b → part[n]? = some (if left.getD n Config.erasedByte = b then b else Config.erasedByte)

/-- A request that R133 refuses, with its status and detail: the first check that fails decides. -/
def TenderRefused (f : TenderFields) (r : TabRecord) (plan : SplitPlan) (status : Status) (d : Detail) : Prop :=
  (plan.shares.length < f.share ∧ status = .parse ∧ d = { tab := f.tab, index := f.share, figure := plan.shares.length }) ∨
  ∃ x, plan.shares[f.share - 1]? = some x ∧
    ((x.state = .paid ∧ status = .sharePaid ∧ d = { tab := f.tab, index := f.share }) ∨
    (x.state = .unpaid ∧ reserveHolds r plan x f.method f.amount = false ∧ status = .tabState ∧
      d = { tab := f.tab, index := f.share, figure := 32 - r.tenders.length,
            second := (plan.shares.filter (fun y => y.state = .unpaid)).length }) ∨
    (x.state = .unpaid ∧ reserveHolds r plan x f.method f.amount = true ∧ f.method = .card ∧ f.amount ≠ x.due - x.credited ∧
      status = .amountMismatch ∧ d = { tab := f.tab, index := f.share, figure := x.due - x.credited }))

end Sys2Proof.Statements

open Sys2Proof Sys2Proof.Machine Sys2Proof.Statements

/-! ### The machine -/

/-- The queue is first in, first out: a step takes the command at its front and has that command's effect. The manual knows no such queue: it
is the model's own choice, and stands for the order in which commands reach the switch (assumption 19). -/
def Obligations.StepRunsFrontCommand : Prop :=
  ∀ (s : State) (c : Instr) (rest : List Instr), s.pending = c :: rest → step s = exec c { s with pending := rest }

/-- Every command answers a next state in every state, so no command stops the part, and none touches the queue of commands. That a command
whose conditions do not hold leaves the state as it is, instead of stopping, is the model's choice (assumptions 7 and 12), and so are the
queue (assumption 19) and its going on through a PART_RESET (assumption 24). -/
def Obligations.CommandsAnswerNextAndKeepQueue : Prop :=
  ∀ (c : Instr) (s : State), ∃ t, exec c s = .next t ∧ t.pending = s.pending

/-! ### Invariants that every step keeps -/

/-- The tab memory, the item table and the directory stay in their one form, so that equal tables are equal data; the form is the model's own
(assumption 18). And the tables go on agreeing with one another: the free list holds each FREE tab once (R4) and the closed list each CLOSED
tab (R5); a FREE tab's entry is the formatted one (R2, R8); the holder that the directory names and the hold table agree (R101); the
live-ticket count is the number of live tickets (R10); an entry of a recall list that is not gone carries a tab that is not FREE (R8); a
directory slot field names the slot that holds the tab or will fetch it, and a DAMAGED tab has none (R9, R28); a slot's record, incoming tab
and waiters fit its state (R19, R24); and each slot that fetches or writes has its one operation at the memory controller (R29). -/
def Obligations.StepKeepsTablesInForm : Prop :=
  (∀ s t : State, TablesInForm s → step s = .next t → TablesInForm t) ∧
  (∀ s t : State, TablesInForm s → KitchenFits s → TablesAgree s → step s = .next t → TablesAgree t)

/-- R148: frames other than the reply of the slot's request occupy at most 7 entries of a transmit queue. -/
def Obligations.StepKeepsTransmitRoom : Prop :=
  ∀ s t : State, TransmitRoom s → step s = .next t → TransmitRoom t

/-- R70, R80: a station queue never holds more than 24 tickets, the overflow list never more than 48, a recall list never more than
4, and a station's sent list never more than its window. R66: each live ticket has a number of its own and stands in one place, the queue
of its own station or the overflow list. R67: the ticket counter is 1 to 65,535. -/
def Obligations.StepKeepsKitchenCapacities : Prop :=
  ∀ s t : State, KitchenFits s → step s = .next t → KitchenFits t

/-- R19, R20, R61, R127, R168: 4 waiters to a slot, 4 SPLITs in the engine wait list and none unless a check runs, 32 availability
entries, 16 notices, and a recency order over all 8 slots. -/
def Obligations.StepKeepsListCapacities : Prop :=
  ∀ s t : State, ListsFit s → step s = .next t → ListsFit t

/-- R48: for every tracked item stock plus sold is the level, and the level is at most 9,999. R56, R131: every record in the cache and in tab
memory keeps its total at most 9,999,999 and each share's credited amount at most its due; a record that the memory port brings is taken to
(assumption 3). -/
def Obligations.StepKeepsStockBalance : Prop :=
  (∀ s t : State, StockBalances s → step s = .next t → StockBalances t) ∧
  (∀ s t : State, RecordsFit s → (∀ c r, s.pending.head? = some c → broughtRecord c = some r → RecordFits r) →
    step s = .next t → RecordsFit t)

/-- The state after reset meets every invariant above: the capacities, the tables in form and in agreement, the stock and the records. -/
def Obligations.ResetMeetsInvariants : Prop := Good State.reset

/-! ### Frames at a port -/

/-- R154's worked example: the CRC of the RESET PORT of port 5 with tag 7, and its whole frame. -/
def Obligations.CrcFollowsManualExample : Prop :=
  crc16 [0x06, 0x4F, 0x07, 0x05] = 0x1EAF#16 ∧
  frameBytes Kind.resetPort.byte 0x07 [0x05] = [0x06, 0x4F, 0x07, 0x05, 0xAF, 0x1E] ∧
  crcMatches [0x06, 0x4F, 0x07, 0x05, 0xAF, 0x1E] = true ∧ runIsFrame [0x06, 0x4F, 0x07, 0x05, 0xAF, 0x1E] = true

/-- R144 to R147: a frame at an UNUSED port is discarded in silence; a frame of a kind its role may not send is answered
NOT-PERMITTED; a request other than DESCRIBE during STARTING is answered STARTING; a request at an occupied slot is answered BUSY. In each
case nothing but the port's lane state changes. A frame is whole when it comes (assumption 11). -/
def Obligations.FramesTurnedAwayAreAnswered : Prop :=
  ∀ (s : State) (p : Port) (k : Kind) (tag : Byte) (body : List Byte) (c : Instr),
    frameCommand p tag body k = some c → body.length ≤ maxBody →
    (s.role p = .unused → exec c s = .next (s.setPort p (delimited (s.port p)))) ∧
    (s.role p ≠ .unused → maySend (s.role p) k = false →
      exec c s = .next (s.setPort p (answeredPort (s.port p) .notPermitted k.byte tag))) ∧
    (maySend (s.role p) k = true → k ≠ .taken → k ≠ .describe → s.phase = .starting →
      exec c s = .next (s.setPort p (answeredPort (s.port p) .starting k.byte tag))) ∧
    (maySend (s.role p) k = true → k ≠ .taken → (s.phase = .ready ∨ k = .describe) → (s.port p).request ≠ none →
      exec c s = .next (s.setPort p (answeredPort (s.port p) .busy k.byte tag)))

/-- LINK_ERROR (R144, R147): a frame whose CRC does not match, at a port with a role, is answered LINK-ERROR with tag 0 and kind 0.
KIND_NOT_PERMITTED (R145, R147): a frame of an unassigned kind, or of a kind the role may not send, is answered NOT-PERMITTED with its own
tag and kind. RUN_DISCARDED (R143): a run that is no frame is discarded without an answer. Nothing else changes. Runs and frames come
whole (assumption 11). -/
def Obligations.BadRunsAndFramesAreEnded : Prop :=
  (∀ (s : State) (p : Port) (run : List Byte), runIsFrame run = true → crcMatches run = false → s.role p ≠ .unused →
    exec (.linkError p run) s = .next (s.setPort p (answeredPort (s.port p) .linkError 0 0))) ∧
  (∀ (s : State) (p : Port) (kind tag : Byte) (body : List Byte), body.length ≤ maxBody → s.role p ≠ .unused →
    (∀ k, kindOfByte kind = some k → maySend (s.role p) k = false) →
    exec (.kindNotPermitted p kind tag body) s = .next (s.setPort p (answeredPort (s.port p) .notPermitted kind tag))) ∧
  (∀ (s : State) (p : Port) (run : List Byte), runIsFrame ((s.port p).assembly ++ run) = false →
    exec (.runDiscarded p run) s = .next (s.setPort p (delimited (s.port p))))

/-- FRAME_SENT (R146, R149): the frame on the line leaves; its request slot is freed exactly when it was the slot's reply; the next
frame is the REPLY longest in the queue, or else the frame longest in the queue, and it alone leaves the queue, the others keeping their
order; nothing else changes. The next frame starts at once (assumption 17). -/
def Obligations.FrameSentFreesSlotAndPicksReplyFirst : Prop :=
  ∀ (s : State) (p : Port) (f : TxFrame), (s.port p).sending = some f →
    ∃ x, exec (.frameSent p) s = .next (s.setPort p x) ∧
      x.request = (if f.source = .slotReply then none else (s.port p).request) ∧
      (∀ front g back, (s.port p).queue = front ++ g :: back → (∀ h ∈ front, h.kind ≠ .reply) → g.kind = .reply →
        x.sending = some g ∧ x.queue = front ++ back) ∧
      ((∀ h ∈ (s.port p).queue, h.kind ≠ .reply) →
        x.sending = (s.port p).queue.head? ∧ x.queue = (s.port p).queue.tail) ∧
      { x with request := (s.port p).request, sending := (s.port p).sending, queue := (s.port p).queue } = s.port p

/-! ### Part reset, start-up and the flash -/

/-- PART_RESET (R161, R2, R141, R20, R67, R95, R127, R168): the phase is STARTING and every block takes its part-reset value; tab
memory keeps its records, and with no save running the flash keeps its bytes. A save that runs ends with no notice, and the flash is left as by
a save that fails (R173, R174; what is left is the command's: assumption 3). The values that follow are the manual's; what the manual does not
give stands in `State.reset` by assumption 6, and what survives a part reset by assumption 24. -/
def Obligations.PartResetPutsBlocksBack : Prop :=
  (∀ (s : State) (left : List Byte), s.save = none →
    exec (.partReset left) s = .next { State.reset with
      pending := s.pending, now := s.now, flash := s.flash, tabMemory := s.tabMemory } ∧
    State.reset.phase = .starting ∧ State.reset.notices = [] ∧ State.reset.mask = 0x7F#8 ∧
    State.reset.dropped = false ∧ State.reset.save = none ∧ State.reset.audit = none ∧
    State.reset.auditProgress = 0 ∧ State.reset.startUp = 0#8 ∧ State.reset.timers = Timers.defaults ∧
    State.reset.recency = [0, 1, 2, 3, 4, 5, 6, 7] ∧ State.reset.ticketCounter = 1 ∧
    State.reset.check = .notRun ∧ State.reset.engineWait = [] ∧ State.reset.role 0 = .uplink ∧
    (∀ p : Port, p ≠ 0 → State.reset.role p = .unused) ∧
    (∀ p : Port, (State.reset.port p).tagCount = 1 ∧ (State.reset.port p).frames = [] ∧
      (State.reset.port p).request = none ∧ (State.reset.port p).stale = false) ∧
    (∀ p : Port, (State.reset.station p).ready = false ∧ (State.reset.station p).resync = 3 ∧
      (State.reset.station p).window = 2 ∧ State.reset.hold p = none) ∧
    (∀ c, State.reset.item c = none) ∧ ∀ i : SlotId, State.reset.slot i = CacheSlot.cleared) ∧
  (∀ (s : State) (left : List Byte) (began k : Nat) (node : List Byte),
    s.save = some { stage := .writing k, began := began } → s.saveChain[k]? = some node →
    exec (.partReset left) s = .next { State.reset with
      pending := s.pending, now := s.now, flash := s.flash ++ nodePlace node left, tabMemory := s.tabMemory }) ∧
  (∀ (s : State) (left : List Byte) (began : Nat), s.save = some { stage := .erasing, began := began } →
    ∃ part, PartOfChain s.flash left part ∧
      exec (.partReset left) s = .next { State.reset with
        pending := s.pending, now := s.now, flash := part, tabMemory := s.tabMemory })

/-- CONFIG_WALK_NODE during STARTING (R162, R163, R164, R161, R2): a good node is loaded with its bit in the start-up result and the walk
goes on after it; an END node, a bad node or a fault ends the walk, which formats the directory, makes the phase READY and starts the
image period timer at the model's present moment (assumption 5). Entries are loaded in the order in which they stand; a STATIONS node's
entry replaces the station's alternate, balance flag and window, as the load does, with that load's effect on the SENT tickets (R166). -/
def Obligations.ConfigWalkLoadsOrEnds : Prop :=
  ∀ s : State, s.phase = .starting →
    (∀ rates next, readNode s.flash s.walkAt = some (.taxes rates, next) →
      exec (.configWalkNode .contents) s = .next
        { s with taxRates := rates, startUp := s.startUp ||| 0x04#8, walkAt := next }) ∧
    (∀ rates next, readNode s.flash s.walkAt = some (.groups rates, next) →
      exec (.configWalkNode .contents) s = .next
        { s with serviceRates := rates, startUp := s.startUp ||| 0x02#8, walkAt := next }) ∧
    (∀ times next, readNode s.flash s.walkAt = some (.timers times, next) →
      exec (.configWalkNode .contents) s = .next
        { s with timers := times, startUp := s.startUp ||| 0x10#8, walkAt := next }) ∧
    (∀ entries next, readNode s.flash s.walkAt = some (.ports entries, next) →
      exec (.configWalkNode .contents) s = .next
        { s with
          portTable := (entries.foldl (fun acc e => acc.setRole e.1 e.2) s).portTable,
          startUp := s.startUp ||| 0x01#8, walkAt := next }) ∧
    (∀ entries next, readNode s.flash s.walkAt = some (.items entries, next) →
      exec (.configWalkNode .contents) s = .next
        { s with
          items := (entries.foldl (fun acc e => acc.setItem e.1 e.2) s).items,
          startUp := s.startUp ||| 0x20#8, walkAt := next }) ∧
    (∀ entries next, readNode s.flash s.walkAt = some (.stations entries, next) →
      ∃ t, exec (.configWalkNode .contents) s = .next t ∧
        t = { s with
          stations := (entries.foldl State.loadStation s).stations, startUp := s.startUp ||| 0x08#8, walkAt := next } ∧
        (∀ front q e rest, entries = front ++ (q, e) :: rest → (∀ x ∈ rest, x.1 ≠ q) →
          (t.station q).alternate = e.alternate ∧ (t.station q).balance = e.balance ∧ (t.station q).window = e.window) ∧
        (∀ q, (∀ x ∈ entries, x.1 ≠ q) → t.station q = s.station q)) ∧
    (∀ read, read = .fault ∨ readNode s.flash s.walkAt = none ∨
        (∃ next, readNode s.flash s.walkAt = some (.last, next)) →
      exec (.configWalkNode read) s = .next
        { s with
          directory := [], freeList := List.range' 1 2048, closedList := [], phase := .ready,
          imageTimer := some (s.now + 1000 * s.timers.image) })

/-- R159, R162, R163, R174: the nodes that a save writes for the tax rates, the service rates and the timers are good nodes when the walk
reads them, wherever in the flash they stand, and load what was saved, for every table value in range; the END node ends the chain. That
the node ends before the device does is said of the model's flash size (assumption 2). -/
def Obligations.SavedNodesReadBack : Prop :=
  ∀ (before after : List Byte), before.length + 100 ≤ Config.flashBytes →
    (∀ rates : Vector Nat 4, (∀ c : Fin 4, rates[c.val] ≤ 3000) →
      readNode (before ++ flashNode 3 (rateBytes rates.toList) ++ after) before.length =
        some (.taxes rates, before.length + 13)) ∧
    (∀ rates : Vector Nat 8, (∀ c : Fin 8, rates[c.val] ≤ 3000) →
      readNode (before ++ flashNode 2 (rateBytes rates.toList) ++ after) before.length =
        some (.groups rates, before.length + 21)) ∧
    (∀ times : Timers, 10 ≤ times.hold → times.hold ≤ 600 → 5 ≤ times.ack → times.ack ≤ 100 →
      5 ≤ times.image → times.image ≤ 300 → times.bump ≤ 30 →
      readNode (before ++ flashNode 5 (timerBytes times) ++ after) before.length =
        some (.timers times, before.length + 11)) ∧
    readNode (before ++ flashNode 7 [] ++ after) before.length = some (.last, before.length + 5)

/-! ### Orders and voids -/

/-- The outcome of the line checks and the kitchen placement, for every order on every tab (R54, R56, R48): the accepted lines fit the
tab's 48 lines, take no more of a tracked item than its stock, and leave the total at most 9,999,999. The passing lines form tickets (R55):
every ticket is 1 to 8 lines of one station, the tickets of a station hold its lines in request order with all but the last full, and the
stations come in the order of first appearance; each ticket is judged with the places of those before it taken, and a line is accepted exactly
when it passes and no ticket of its own failed. The target of a ticket follows R69's table and R64, and its place R70. -/
def Obligations.AcceptedLinesKeepTheLimits : Prop :=
  (∀ (s : State) (g : Group) (existing : List TabLine) (lines : List OrderLine),
    let plan := s.planOrder g existing lines
    plan.accepted ≠ [] →
      existing.length + plan.accepted.length ≤ 48 ∧
      (totalsOf s.taxRates (s.serviceRate g) (chargesOf existing ++ plan.accepted.map PassedLine.charge)).total ≤ 9999999 ∧
      ∀ (c : Nat) (item : Item) (t : Tracking), s.item c = some item → item.tracking = some t →
        ((plan.accepted.filter (fun l => l.item = c)).map (fun l => l.quantity)).sum ≤ t.stock) ∧
  (∀ (s : State) (g : Group) (existing : List TabLine) (lines : List OrderLine),
    let plan := s.planOrder g existing lines
    let passed := passedLines plan.checks
    let formed := s.formTickets passed
    (∀ x ∈ formed, 1 ≤ x.2.length ∧ x.2.length ≤ 8 ∧ ∀ l ∈ x.2, s.lineStation l = some x.1) ∧
    (∀ p, ((formed.filter (fun x => x.1 = p)).map Prod.snd).flatten = passed.filter (fun l => s.lineStation l = some p) ∧
      ∀ x ∈ (formed.filter (fun x => x.1 = p)).dropLast, x.2.length = 8) ∧
    (formed.map Prod.fst).Pairwise (fun p q =>
      (passed.filterMap s.lineStation).idxOf p ≤ (passed.filterMap s.lineStation).idxOf q) ∧
    plan.tickets.map JudgedTicket.lines = formed.map Prod.snd ∧
    (∀ k x y, plan.tickets[k]? = some x → formed[k]? = some y →
      x.place = s.findPlace ((plan.tickets.take k).filterMap JudgedTicket.place) y.1) ∧
    ∀ l, l ∈ plan.accepted ↔
      l ∈ passed ∧ ∀ x ∈ plan.tickets, (∃ m ∈ x.lines, m.index = l.index) → x.place ≠ none) ∧
  (∀ (s : State) (done : List Place) (p : Port),
    (∀ a, s.readyAlternate p = some a ↔
      (s.station p).alternate = some a ∧ a ≠ p ∧ s.role a = .station ∧ (s.station a).ready = true) ∧
    (s.readyAlternate p = none → s.target done p = p) ∧
    (∀ a, s.readyAlternate p = some a →
      ((s.station p).ready = false → s.target done p = a) ∧
      ((s.station p).ready = true → (s.station p).balance = false → s.target done p = p) ∧
      ((s.station p).ready = true → (s.station p).balance = true →
        s.target done p = if s.queueLength done a < s.queueLength done p then a else p)) ∧
    s.queueLength done p = (s.station p).queue.length + (done.filter (fun d => d.inQueue && d.target = p)).length ∧
    (s.queueLength done (s.target done p) < 24 → s.findPlace done p = some { target := s.target done p, inQueue := true }) ∧
    (24 ≤ s.queueLength done (s.target done p) →
      s.findPlace done p = if s.overflow.length + (done.filter (fun d => !d.inQueue)).length < 48 then
        some { target := s.target done p, inQueue := false } else none))

/-- What an accepted line of an order becomes on the tab, apart from its number and its ticket (R12, R56). -/
def Statements.lineContents (l : TabLine) : Nat × Nat × Nat × TaxClass × Byte × LineState :=
  (l.item, l.quantity, l.price, l.taxClass, l.modifier, l.state)

/-- The same contents as the order's accepted line gives them: ACTIVE, price and class as copied by the line checks (R54, R56). -/
def Statements.acceptedContents (l : PassedLine) : Nat × Nat × Nat × TaxClass × Byte × LineState :=
  (l.item, l.quantity, l.price, l.taxClass, l.modifier, .active)

/-- The quantity of an item that an order's accepted lines take. -/
def Statements.takenOf (accepted : List PassedLine) (c : Nat) : Nat :=
  ((accepted.filter (fun l => l.item = c)).map (fun l => l.quantity)).sum

/-- The tickets of an order that found a place (R55, R56). -/
def Statements.placed (plan : OrderPlan) : Nat := (plan.tickets.filter (fun x => x.place.isSome)).length

/-- ORDER for tab 0 from a till, with a free tab and a slot to clear (R3, R11, R23, R24, R56, R57): the head of the free list opens in the till's
group with a new record holding the accepted lines, numbered from 1, each with the number of its ticket; stock falls and sold rises by what was
accepted; the tickets that found a place are created in order (R67, R68), and the live-ticket count is their number; the availability changes
are latched (R51). With no line accepted no tab is taken, and the slot is EMPTY. The tab that the slot held, if any, is uncached. Nothing else
changes. What the reply holds where an outcome or the total has nothing to say is the model's (assumptions 26 and 27). -/
def Obligations.NewOrderOpensTab : Prop :=
  ∀ (s : State) (p : Port) (tag : Byte) (body : List Byte) (rush : Bool) (lines : List OrderLine) (g : Group) (i : SlotId)
    (tab : Nat) (rest : List Nat),
    body.length ≤ maxBody → Admitted s p .order → s.role p = .till g → readOrder body = some (0, rush, lines) →
    s.freeList = tab :: rest → s.victim = some i → s.victimDirty i = false →
    let plan := s.planOrder g [] lines
    let uncached := fun u : Nat => if (s.slot i).tab = some u then { s.dir u with slot := none } else s.dir u
    ∃ t, exec (.order p tag body) s = .next t ∧ t.recency = touched s i ∧
      (plan.accepted = [] →
        SlotBecomes s t i CacheSlot.cleared ∧ (∀ u, t.dir u = uncached u) ∧
        RepliedAt s t p .order tag .partly (orderReply 0 0 plan [] 0) ∧ OtherPortsKept s t p ∧
        { t with ports := s.ports, recency := s.recency, slots := s.slots, directory := s.directory } = s) ∧
      (plan.accepted ≠ [] → ∃ r numbers,
        let created := numbers.zip ((placedTickets plan).map Prod.snd)
        t.freeList = rest ∧
        t.dir tab = { state := .opened, group := some g, holder := none, paidInPart := false,
                      live := Statements.placed plan, slot := some i } ∧
        (∀ u, u ≠ tab → t.dir u = uncached u) ∧
        SlotBecomes s t i
          { state := .ready, tab := some tab, incoming := .none, record := some r, dirty := true, waits := [] } ∧
        r = { tab := tab, group := g, openingTill := p, lines := r.lines, totals := s.lineTotals g r.lines, plan := none,
              tenders := [] } ∧
        r.lines.map Statements.lineContents = plan.accepted.map Statements.acceptedContents ∧
        r.lines.map (fun l => l.number) = List.range' 1 plan.accepted.length ∧
        r.lines.map (fun l => l.ticket) = plan.accepted.map (fun l => ticketOfLine created l.index) ∧
        TicketsCreated s t tab p rush (lineNumberOf 0 plan.accepted) plan numbers ∧
        (∀ c, t.item c = (s.item c).map (fun x =>
          { x with tracking := x.tracking.map (sellStock (Statements.takenOf plan.accepted c)) })) ∧
        LatchedAndReplied s s t (plan.accepted.map PassedLine.item) p .order tag (orderStatus plan)
          (orderReply tab 0 plan created r.totals.total) ∧
        { t with
          ports := s.ports, recency := s.recency, slots := s.slots, directory := s.directory, freeList := s.freeList,
          items := s.items, availList := s.availList, notices := s.notices, dropped := s.dropped, stations := s.stations,
          overflow := s.overflow, ticketCounter := s.ticketCounter } = s)

/-- ORDER on an OPEN tab of the till's group whose slot is READY with nobody waiting (R53 to R57): the accepted lines are appended
ACTIVE, numbered on from the highest, with price and class copied and the number of their ticket; the totals are those of the new lines at the
rates in effect; stock and sold move by what was accepted; the tickets that found a place are created in order (R67, R68) and the live-ticket
count rises by their number; the availability changes are latched (R51); the slot is dirty and most recent. With no line accepted nothing but
the recency order and the reply changes. What the reply holds where an outcome has nothing to say is the model's (assumption 26). -/
def Obligations.OrderOnOpenTabCommits : Prop :=
  ∀ (s : State) (p : Port) (tag : Byte) (body : List Byte) (tab : Nat) (rush : Bool) (lines : List OrderLine) (i : SlotId)
    (r : TabRecord),
    body.length ≤ maxBody → Admitted s p .order → readOrder body = some (tab, rush, lines) → AtReadySlot s p tab i r →
    (s.dir tab).state = .opened →
    let plan := s.planOrder r.group r.lines lines
    ∃ t, exec (.order p tag body) s = .next t ∧ t.recency = touched s i ∧
      (plan.accepted = [] →
        RepliedAt s t p .order tag .partly (orderReply tab (highestLine r.lines) plan [] r.totals.total) ∧
        OtherPortsKept s t p ∧ { t with ports := s.ports, recency := s.recency } = s) ∧
      (plan.accepted ≠ [] → ∃ r' new numbers,
        let created := numbers.zip ((placedTickets plan).map Prod.snd)
        SlotBecomes s t i (changedSlot (s.slot i) r') ∧
        r' = { r with lines := r.lines ++ new, totals := s.lineTotals r.group (r.lines ++ new) } ∧
        new.map Statements.lineContents = plan.accepted.map Statements.acceptedContents ∧
        new.map (fun l => l.number) = List.range' (highestLine r.lines + 1) plan.accepted.length ∧
        new.map (fun l => l.ticket) = plan.accepted.map (fun l => ticketOfLine created l.index) ∧
        TicketsCreated s t tab p rush (lineNumberOf (highestLine r.lines) plan.accepted) plan numbers ∧
        EntryBecomes s t tab { s.dir tab with live := (s.dir tab).live + Statements.placed plan } ∧
        (∀ c, t.item c = (s.item c).map (fun x =>
          { x with tracking := x.tracking.map (sellStock (Statements.takenOf plan.accepted c)) })) ∧
        LatchedAndReplied s s t (plan.accepted.map PassedLine.item) p .order tag (orderStatus plan)
          (orderReply tab (highestLine r.lines) plan created r'.totals.total) ∧
        { t with
          ports := s.ports, recency := s.recency, slots := s.slots, directory := s.directory, items := s.items,
          availList := s.availList, notices := s.notices, dropped := s.dropped, stations := s.stations,
          overflow := s.overflow, ticketCounter := s.ticketCounter } = s)

/-- VOID of an ACTIVE line of an OPEN tab whose slot is READY with nobody waiting, when the total without the line is in range (R59, R60, R82):
a line with no ticket, or whose live ticket is unstarted, becomes VOID, and its quantity goes back to stock if the item is tracked and has sold
that many, nothing else of the item changing; any other line becomes WASTE and no stock moves. The line is struck from its unstarted ticket
(R83): a ticket with lines left stays in its place, with a new revision and STALE if it had been sent, and leaves the sent list if it was SENT;
a ticket with none left is removed, with promotion and a WITHDRAW (R84). The availability changes are latched (R51), the totals are recomputed,
and the slot is dirty and most recent; nothing else changes. With no ACTIVE line of that number, because it is absent, VOID or WASTE (R58), or
with a total out of range (R60), the VOID is answered TAB-STATE and nothing changes but the recency order. The kitchen is asked after the total
is judged (assumption 21); an ack timer that restarts reads the model's clock (assumption 5). -/
def Obligations.VoidChangesLine : Prop :=
  (∀ (s : State) (p : Port) (tag t0 t1 l : Byte) (i : SlotId) (r : TabRecord) (x : TabLine),
    Admitted s p .void → l ≠ 0 → AtReadySlot s p (read2 t0 t1) i r → (s.dir (read2 t0 t1)).state = .opened →
    r.lines.find? (fun y => y.number = l.toNat && y.state = .active) = some x →
    (s.totalsWithout r l.toNat).total ≤ 9999999 →
    let tab := read2 t0 t1
    let found := x.ticket.bind (s.findLineTicket tab x.number)
    let voids : Prop := x.ticket = none ∨ ∃ u, found = some u ∧ u.started = false
    let returns : Prop := voids ∧ ∃ k, (s.item x.item).bind Item.tracking = some k ∧ x.quantity ≤ k.sold
    ∃ t r' v returned code, exec (.void p tag [t0, t1, l]) s = .next t ∧ t.recency = touched s i ∧
      SlotBecomes s t i (changedSlot (s.slot i) r') ∧ r'.totals = s.lineTotals r.group r'.lines ∧
      r' = { r with lines := r'.lines, totals := r'.totals } ∧
      (voids → code = 1 ∧ r'.lines = r.lines.map (fun y =>
        if y.number = l.toNat then { y with state := .void, ticket := (found.map Ticket.number).or x.ticket } else y)) ∧
      (¬ voids → code = 2 ∧ r'.lines = r.lines.map (fun y =>
        if y.number = l.toNat then { y with state := .waste, ticket := (found.map Ticket.number).or x.ticket } else y)) ∧
      (returns → returned = true ∧ ∀ k, (s.item x.item).bind Item.tracking = some k →
        t.item x.item = (s.item x.item).map (fun y =>
          { y with tracking := some { k with stock := k.stock + x.quantity, sold := k.sold - x.quantity } })) ∧
      (¬ returns → returned = false ∧ t.items = s.items) ∧
      (∀ c, c ≠ x.item → t.item c = s.item c) ∧
      ((¬ voids ∨ x.ticket = none) → v = s) ∧
      (∀ u, found = some u → u.started = false →
        let left := u.lines.filter (fun y => y.line ≠ x.number)
        let struck : Ticket :=
          { u with
            lines := left, revision := if u.state = .queued then u.revision else u.revision + 1,
            state := if u.state = .queued then .queued else .stale }
        let mapped := { s.station u.station with
          queue := (s.station u.station).queue.map (fun y => if y.number = u.number then struck else y) }
        (left ≠ [] → (∃ y ∈ s.overflow, y.number = u.number) →
          v = { s with overflow := s.overflow.map (fun y => if y.number = u.number then struck else y) }) ∧
        (left ≠ [] → (∀ y ∈ s.overflow, y.number ≠ u.number) →
          v = s.setStation u.station (if u.state = .sent then leftSent s mapped u.number else mapped)) ∧
        (left = [] → ∃ w, TicketRemoved s w u ∧ WithdrawOffered w v u)) ∧
      t.stations = v.stations ∧ t.overflow = v.overflow ∧ t.directory = v.directory ∧
      LatchedAndReplied s v t [x.item] p .void tag .ok
        (num2 tab ++ num1 l.toNat ++ num1 code ++ flagByte returned ++ money r'.totals.total) ∧
      { t with
        ports := s.ports, recency := s.recency, slots := s.slots, directory := s.directory, items := s.items,
        availList := s.availList, notices := s.notices, dropped := s.dropped, stations := s.stations,
        overflow := s.overflow } = s) ∧
  (∀ (s : State) (p : Port) (tag t0 t1 l : Byte) (i : SlotId) (r : TabRecord),
    Admitted s p .void → l ≠ 0 → AtReadySlot s p (read2 t0 t1) i r → (s.dir (read2 t0 t1)).state = .opened →
    ((∀ y ∈ r.lines, y.number = l.toNat → y.state ≠ .active) ∨
      ((∃ y ∈ r.lines, y.number = l.toNat ∧ y.state = .active) ∧ 9999999 < (s.totalsWithout r l.toNat).total)) →
    ∃ t, exec (.void p tag [t0, t1, l]) s = .next t ∧ t.recency = touched s i ∧
      RepliedAt s t p .void tag .tabState (Detail.bytes { tab := read2 t0 t1 }) ∧ OtherPortsKept s t p ∧
      { t with ports := s.ports, recency := s.recency } = s)

/-! ### Reading -/

/-- READ TAB of a readable tab whose slot is READY with nobody waiting, from a till of the tab's group or from the uplink (R17, R18, R26):
the reply carries the directory's and the record's figures for the page, the slot becomes most recent, and nothing else changes: no dirty
flag and no deadline. -/
def Obligations.ReadTabRepliesPage : Prop :=
  ∀ (s : State) (p : Port) (tag t0 t1 page : Byte) (i : SlotId) (r : TabRecord),
    Admitted s p .readTab → page.toNat ≤ 6 → isTab (read2 t0 t1) = true →
    (s.role p = .uplink ∨ s.sameGroup p (read2 t0 t1) = true) →
    (s.dir (read2 t0 t1)).state ≠ .free → (s.dir (read2 t0 t1)).state ≠ .damaged →
    (s.dir (read2 t0 t1)).slot = some i → (s.slot i).state = .ready → (s.slot i).tab = some (read2 t0 t1) →
    (s.slot i).record = some r → (s.slot i).waits = [] → p ∉ s.engineWait →
    ∃ t, exec (.readTab p tag [t0, t1, page]) s = .next t ∧ t.recency = touched s i ∧
      RepliedAt s t p .readTab tag .ok (readTabBytes (s.dir (read2 t0 t1)) r (read2 t0 t1) page.toNat) ∧
      OtherPortsKept s t p ∧ { t with ports := s.ports, recency := s.recency } = s

/-- LIST TABS, READ ITEMS and STATUS are pictures of the tables and change nothing (R16, R47, R171). LIST TABS lists only tabs at or above
the starting number that are not FREE and match the selector and the group, at most 16 of them; READ ITEMS lists the defined items from the
starting code, at most 8 (its fields of an absent part are the model's 0: assumption 9). -/
def Obligations.ReadingRequestsOnlyReply : Prop :=
  (∀ (s : State) (p : Port) (tag t0 t1 sel g : Byte) (selector : Option TabState) (group : Option Group),
    Admitted s p .listTabs → isTab (read2 t0 t1) = true → readSelector sel = some selector → g.toNat ≤ 8 →
    listGroup (s.role p) g.toNat = some group →
    (∃ t listed, exec (.listTabs p tag [t0, t1, sel, g]) s = .next t ∧
      listed = s.tabsFrom (read2 t0 t1) selector group ∧
      OnlyReplied s t p .listTabs tag .ok (num1 listed.length ++ listed.flatMap (fun e => listBytes e.1 e.2) ++
        num2 (continuation 16 2048 (listed.map Prod.fst))) ∧
      listed.length ≤ 16 ∧ listed.Sublist s.directory ∧
      ∀ e ∈ listed, read2 t0 t1 ≤ e.1 ∧ e.2.state ≠ .free ∧ (∀ x, selector = some x → e.2.state = x) ∧
        (∀ x, group = some x → e.2.group = some x))) ∧
  (∀ (s : State) (tag c0 c1 : Byte), OfficeAdmitted s → isItemCode (read2 c0 c1) = true →
    ∃ t listed, exec (.readItems 0 tag [c0, c1]) s = .next t ∧ listed = s.itemsFrom (read2 c0 c1) ∧
      OnlyReplied s t 0 .readItems tag .ok (num1 listed.length ++ listed.flatMap (fun e => readItemBytes e.1 e.2) ++
        num2 (continuation 8 1023 (listed.map Prod.fst))) ∧
      listed.length ≤ 8 ∧ listed.Sublist s.items ∧ ∀ e ∈ listed, read2 c0 c1 ≤ e.1) ∧
  (∀ (s : State) (tag : Byte), OfficeAdmitted s →
    ∃ t, exec (.status 0 tag []) s = .next t ∧ OnlyReplied s t 0 .status tag .ok s.statusBytes)

/-- DESCRIBE, in either phase (R172): only the reply, whose body's bytes add up to 0 modulo 256 with A5 the last but one; after a
start-up that loaded every table the body is the manual's, ending A5 DF. -/
def Obligations.DescribeSumsToZero : Prop :=
  (∀ (s : State) (tag : Byte), s.role 0 = .uplink → (s.port 0).request = none →
    ∃ t fields, exec (.describe 0 tag []) s = .next t ∧ OnlyReplied s t 0 .describe tag .ok fields ∧
      ((Status.ok.byte :: Kind.describe.byte :: fields).map BitVec.toNat).sum % 256 = 0 ∧
      fields.length = 16 ∧ fields[14]? = some 0xA5#8) ∧
  (∀ (s : State) (tag : Byte), s.role 0 = .uplink → (s.port 0).request = none → s.startUp = 0x3F#8 →
    ∃ t, exec (.describe 0 tag []) s = .next t ∧ OnlyReplied s t 0 .describe tag .ok
      [0x31, 0x0C, 0x16, 0x24, 0x01, 0x18, 0x00, 0x08, 0x08, 0xFF, 0x03, 0x18, 0x30, 0x3F, 0xA5, 0xDF])

/-! ### Splits, holds and tenders -/

/-- R102's table, for every till request: what a tab's state and holder make of it (none: it proceeds). A request that the table refuses at
its tab's READY slot is answered with that status, and nothing but the recency order changes (R26); a SPLIT comes to the table when the check has
passed (R122). When taken, a request on a number that is no tab's or is FREE is answered NO-SUCH-TAB, on a DAMAGED tab TAB-DAMAGED, and from
another group NOT-PERMITTED (R1, R100; READ TAB compares the group first, R17); a body that does not parse is answered PARSE (R156; what its
detail names is the model's, assumption 8). Nothing changes then. -/
def Obligations.RequestJudgementTable : Prop :=
  (∀ (s : State) (p : Port) (t : Nat),
    ((s.dir t).state = .opened →
      s.judgeState .orderOrVoid p t = none ∧
      s.judgeState .split p t = (if s.holdsAnother p t then some .tabState else none) ∧
      s.judgeState .cancelOrTender p t = some .notHolder ∧ s.judgeState .resume p t = some .tabState ∧
      s.judgeState .readTab p t = none) ∧
    ((s.dir t).state = .tendering → (s.dir t).holder = some p →
      s.judgeState .orderOrVoid p t = some .tabState ∧ s.judgeState .split p t = none ∧
      s.judgeState .cancelOrTender p t = none ∧ s.judgeState .resume p t = none ∧ s.judgeState .readTab p t = none) ∧
    ((s.dir t).state = .tendering → (∃ q, (s.dir t).holder = some q ∧ q ≠ p) →
      s.judgeState .orderOrVoid p t = some .tabHeld ∧ s.judgeState .split p t = some .tabHeld ∧
      s.judgeState .cancelOrTender p t = some .tabHeld ∧ s.judgeState .resume p t = some .tabHeld ∧
      s.judgeState .readTab p t = none) ∧
    ((s.dir t).state = .tendering → (s.dir t).holder = none →
      s.judgeState .orderOrVoid p t = some .tabState ∧ s.judgeState .split p t = some .notHolder ∧
      s.judgeState .cancelOrTender p t = some .notHolder ∧
      s.judgeState .resume p t = (if s.holdsAnother p t then some .tabState else none) ∧
      s.judgeState .readTab p t = none) ∧
    ((s.dir t).state = .closed →
      s.judgeState .orderOrVoid p t = some .tabState ∧ s.judgeState .split p t = some .tabState ∧
      s.judgeState .cancelOrTender p t = some .tabState ∧ s.judgeState .resume p t = some .tabState ∧
      s.judgeState .readTab p t = none)) ∧
  (∀ (s : State) (p : Port) (k : Kind) (tag : Byte) (body : List Byte) (c : Instr) (tab : Nat) (request : TabRequest)
    (i : SlotId) (r : TabRecord) (row : RequestRow) (status : Status),
    ReachesCache s p k tag body c tab request → AtReadySlot s p tab i r → (k = .split → s.check = .passed) →
    rowOf k = some row → s.judgeState row p tab = some status →
    ∃ t, exec c s = .next t ∧ t.recency = touched s i ∧
      RepliedAt s t p k tag status (requestDetail request).bytes ∧ OtherPortsKept s t p ∧
      { t with ports := s.ports, recency := s.recency } = s) ∧
  (∀ (s : State) (p : Port) (k : Kind) (tag : Byte) (body : List Byte) (c : Instr) (tab : Nat) (request : TabRequest),
    Arrives s p k tag body c tab request →
    ((isTab tab = false ∨ (s.dir tab).state = .free) →
      ∃ t, exec c s = .next t ∧ OnlyReplied s t p k tag .noSuchTab (requestDetail request).bytes) ∧
    (isTab tab = true → (s.dir tab).state = .damaged → (k = .readTab → s.sameGroup p tab = true) →
      ∃ t, exec c s = .next t ∧ OnlyReplied s t p k tag .tabDamaged (requestDetail request).bytes) ∧
    (isTab tab = true → (s.dir tab).state ≠ .free → ((s.dir tab).state = .damaged → k = .readTab) →
        s.sameGroup p tab = false →
      ∃ t, exec c s = .next t ∧ OnlyReplied s t p k tag .notPermitted (requestDetail request).bytes)) ∧
  (∀ (s : State) (p : Port) (k : Kind) (tag : Byte) (body : List Byte) (c : Instr),
    frameCommand p tag body k = some c → body.length ≤ maxBody → Admitted s p k → rowOf k ≠ none →
    tabRequestOf k body = none → (k = .order → readOrder body = none) →
    ∃ t d, exec c s = .next t ∧ OnlyReplied s t p k tag .parse (Detail.bytes d))

/-- How many shares come before share `j` when the leftover cents of R114 are handed out: those with a larger remainder, and those
with the same remainder and a lower index. -/
def Statements.sharesBefore (amount : Nat) (weights : List Nat) (j : Nat) : Nat :=
  ((List.range weights.length).filter (fun k =>
    decide (amount * weights.getD j 0 % weights.sum < amount * weights.getD k 0 % weights.sum ∨
      (amount * weights.getD k 0 % weights.sum = amount * weights.getD j 0 % weights.sum ∧ k < j)))).length

/-- R114, whole: nothing to divide gives parts of 0; otherwise each part is the share's product divided by the weights' sum, and the
leftover cents go one each to the largest remainders, the lower index first on a tie; the parts add up to the amount, and a share of
weight 0 receives nothing. -/
def Obligations.ApportionFollowsLargestRemainders : Prop :=
  ∀ (amount : Nat) (weights : List Nat),
    (amount = 0 ∨ weights.sum = 0 → apportion amount weights = weights.map (fun _ => 0)) ∧
    (amount ≠ 0 → weights.sum ≠ 0 →
      (apportion amount weights).length = weights.length ∧ (apportion amount weights).sum = amount ∧
      ∀ j, j < weights.length →
        (apportion amount weights).getD j 0 =
          amount * weights.getD j 0 / weights.sum +
            (if Statements.sharesBefore amount weights j <
                amount - (weights.map (fun w => amount * w / weights.sum)).sum then 1 else 0) ∧
        (weights.getD j 0 = 0 → (apportion amount weights).getD j 0 = 0))

/-- R116, whole: the dues of an EVEN split are the apportion of the total with a weight of 1 for every share, so the leftover cents go
to the lowest indices; a total of 6,549 split EVEN 4 is due 1,638, 1,637, 1,637 and 1,637; EVEN 1 is one share of the whole total. -/
def Obligations.EvenDuesLeaveLeftoverToLowest : Prop :=
  ∀ (t : Totals) (n : Nat), 1 ≤ n → n ≤ 16 →
    (evenShares t n).map Share.due = apportion t.total (List.replicate n 1) ∧
    (evenShares t n).map Share.due =
      (List.range n).map (fun j => t.total / n + if j < t.total % n then 1 else 0) ∧
    (t.total = 6549 → (evenShares t 4).map Share.due = [1638, 1637, 1637, 1637]) ∧
    (evenShares t 1).map Share.due = [t.total]

/-- R121, R119: the dues of every plan the split engine makes add up to the tab's total, and in BY-ITEM mode every due is the sum of
its components and each component added over the shares is the tab's. In EVEN mode every share has components too, each of the nine amounts
apportioned on its own with a weight of 1 for every share, and each component added over the shares is the tab's (R117). -/
def Obligations.PlanDuesSumToTotal : Prop :=
  ∀ (spec : SplitSpec) (r : TabRecord) (plan : SplitPlan), RecordSound r → SpecAdmitted spec → makePlan spec r = .plan plan →
    (plan.shares.map Share.due).sum = r.totals.total ∧
    (∀ x ∈ plan.shares, x.credited = 0 ∧ (x.state = .paid ↔ x.due = 0)) ∧
    (plan.mode = .byItem → ∃ parts : List Amounts, plan.shares.map Share.components = parts.map some ∧
      plan.shares.map Share.due = parts.map amountsSum ∧
      (∀ c : TaxClass, (parts.map (fun a => a.net[c.val])).sum = r.totals.amounts.net[c.val]) ∧
      (∀ c : TaxClass, (parts.map (fun a => a.tax[c.val])).sum = r.totals.amounts.tax[c.val]) ∧
      (parts.map (fun a => a.service)).sum = r.totals.amounts.service) ∧
    (∀ n, spec = .even n → ∃ parts : List Amounts, plan.shares.map Share.components = parts.map some ∧ parts.length = n ∧
      (∀ c : TaxClass, parts.map (fun a => a.net[c.val]) = apportion r.totals.amounts.net[c.val] (List.replicate n 1) ∧
        (parts.map (fun a => a.net[c.val])).sum = r.totals.amounts.net[c.val]) ∧
      (∀ c : TaxClass, parts.map (fun a => a.tax[c.val]) = apportion r.totals.amounts.tax[c.val] (List.replicate n 1) ∧
        (parts.map (fun a => a.tax[c.val])).sum = r.totals.amounts.tax[c.val]) ∧
      parts.map (fun a => a.service) = apportion r.totals.amounts.service (List.replicate n 1) ∧
      (parts.map (fun a => a.service)).sum = r.totals.amounts.service)

/-- R120, whole: a BY-AMOUNT plan's first shares are due the amounts given and its last the rest, with no components and no division; a
sum equal to the total leaves the last share due 0; a sum above the total makes SPLIT answer OVER-TOTAL with the tab's total and
change nothing but the recency order. -/
def Obligations.ByAmountSharesTakeTheRest : Prop :=
  (∀ (n : Nat) (amounts : List Nat) (r : TabRecord), amounts.sum ≤ r.totals.total →
    ∃ plan, makePlan (.byAmount n amounts) r = .plan plan ∧ plan.mode = .byAmount ∧
      plan.shares.map Share.due = amounts ++ [r.totals.total - amounts.sum] ∧
      (∀ x ∈ plan.shares, x.components = none) ∧
      (amounts.sum = r.totals.total → (plan.shares.map Share.due).getLast? = some 0)) ∧
  (∀ (n : Nat) (amounts : List Nat) (r : TabRecord), r.totals.total < amounts.sum →
    makePlan (.byAmount n amounts) r = .refused .overTotal 0 r.totals.total) ∧
  (∀ (s : State) (p : Port) (tag : Byte) (body : List Byte) (tab n : Nat) (amounts : List Nat) (i : SlotId) (r : TabRecord),
    body.length ≤ maxBody → Admitted s p .split → s.check = .passed → readSplit body = some (tab, .byAmount n amounts) →
    AtReadySlot s p tab i r → (s.dir tab).state = .opened → s.holdsAnother p tab = false → r.totals.total < amounts.sum →
    ∃ t, exec (.split p tag body) s = .next t ∧ t.recency = touched s i ∧
      RepliedAt s t p .split tag .overTotal (Detail.bytes { tab := tab, figure := r.totals.total }) ∧
      OtherPortsKept s t p ∧ { t with ports := s.ports, recency := s.recency } = s)

/-- SPLIT while the split check state is PASSED, at a READY slot with nobody waiting (R103, R104, R123, R124): on an OPEN tab the plan is
written, the tab becomes TENDERING and the till takes the hold with a fresh deadline; on a TENDERING tab that the till holds, not
paid in part, the plan is replaced and the deadline restarted. The slot is dirty and most recent, and nothing else changes. On a TENDERING tab
that the till holds, money taken gives PAID-IN-PART (R122), and a mode's refusal its status and figure: the plan and the hold stay and the
deadline is restarted. On an OPEN tab a mode's refusal changes nothing but the recency order. The refusals of a mode are PARSE with the first
entry's line that is absent, VOID or WASTE, SPLIT-UNASSIGNED with the first unlisted ACTIVE line under REFUSE (R118), and OVER-TOTAL with the
total (R120). A deadline counts from the model's present moment (assumption 5). -/
def Obligations.SplitWritesPlanUnderHold : Prop :=
  (∀ (s : State) (p : Port) (tag : Byte) (body : List Byte) (tab : Nat) (spec : SplitSpec) (i : SlotId) (r : TabRecord)
    (plan : SplitPlan),
    body.length ≤ maxBody → Admitted s p .split → s.check = .passed → readSplit body = some (tab, spec) →
    AtReadySlot s p tab i r → makePlan spec r = .plan plan →
    ((s.dir tab).state = .opened → s.holdsAnother p tab = false → planAllPaid plan = false →
      ∃ t, exec (.split p tag body) s = .next t ∧ t.recency = touched s i ∧
        SlotBecomes s t i (changedSlot (s.slot i) { r with plan := some plan }) ∧
        EntryBecomes s t tab { s.dir tab with state := .tendering, holder := some p } ∧
        HoldBecomes s t p (some { tab := tab, deadline := s.now + 1000 * s.timers.hold }) ∧
        RepliedAt s t p .split tag .ok (splitReply tab .tendering plan) ∧ OtherPortsKept s t p ∧
        { t with
          ports := s.ports, recency := s.recency, slots := s.slots, directory := s.directory, holds := s.holds } = s) ∧
    (∀ h, (s.dir tab).state = .tendering → (s.dir tab).holder = some p → (s.dir tab).paidInPart = false →
      s.hold p = some h →
      ∃ t, exec (.split p tag body) s = .next t ∧ t.recency = touched s i ∧
        SlotBecomes s t i (changedSlot (s.slot i) { r with plan := some plan }) ∧
        HoldBecomes s t p (some { h with deadline := s.now + 1000 * s.timers.hold }) ∧
        RepliedAt s t p .split tag .ok (splitReply tab .tendering plan) ∧ OtherPortsKept s t p ∧
        { t with ports := s.ports, recency := s.recency, slots := s.slots, holds := s.holds } = s)) ∧
  (∀ (s : State) (p : Port) (tag : Byte) (body : List Byte) (tab : Nat) (spec : SplitSpec) (i : SlotId) (r : TabRecord)
    (h : Hold) (status : Status) (index figure : Nat),
    body.length ≤ maxBody → Admitted s p .split → s.check = .passed → readSplit body = some (tab, spec) →
    AtReadySlot s p tab i r → (s.dir tab).state = .tendering → (s.dir tab).holder = some p → s.hold p = some h →
    (((s.dir tab).paidInPart = true ∧ status = .paidInPart ∧ index = 0 ∧ figure = 0) ∨
      ((s.dir tab).paidInPart = false ∧ makePlan spec r = .refused status index figure)) →
    ∃ t, exec (.split p tag body) s = .next t ∧ t.recency = touched s i ∧
      HoldBecomes s t p (some { h with deadline := s.now + 1000 * s.timers.hold }) ∧
      RepliedAt s t p .split tag status (Detail.bytes { tab := tab, index := index, figure := figure }) ∧
      OtherPortsKept s t p ∧ { t with ports := s.ports, recency := s.recency, holds := s.holds } = s) ∧
  (∀ (s : State) (p : Port) (tag : Byte) (body : List Byte) (tab : Nat) (spec : SplitSpec) (i : SlotId) (r : TabRecord)
    (status : Status) (index figure : Nat),
    body.length ≤ maxBody → Admitted s p .split → s.check = .passed → readSplit body = some (tab, spec) →
    AtReadySlot s p tab i r → (s.dir tab).state = .opened → s.holdsAnother p tab = false →
    makePlan spec r = .refused status index figure →
    ∃ t, exec (.split p tag body) s = .next t ∧ t.recency = touched s i ∧
      RepliedAt s t p .split tag status (Detail.bytes { tab := tab, index := index, figure := figure }) ∧
      OtherPortsKept s t p ∧ { t with ports := s.ports, recency := s.recency } = s) ∧
  (∀ (n : Nat) (policy : SplitPolicy) (entries : List Assignment) (r : TabRecord),
    let names (e : Assignment) : Prop := ∃ l ∈ r.lines, l.number = e.line ∧ l.state = .active
    let isNamed (l : TabLine) : Prop := ∃ e ∈ entries, e.line = l.number
    (∀ front e back, entries = front ++ e :: back → (∀ x ∈ front, names x) → ¬ names e →
      makePlan (.byItem n policy entries) r = .refused .parse e.line 0) ∧
    (∀ front l back, (∀ x ∈ entries, names x) → policy = .refuse → r.lines = front ++ l :: back → l.state = .active →
      ¬ isNamed l → (∀ y ∈ front, y.state = .active → isNamed y) →
      makePlan (.byItem n policy entries) r = .refused .splitUnassigned l.number 0) ∧
    ((∀ x ∈ entries, names x) → (policy = .shareAll ∨ ∀ l ∈ r.lines, l.state = .active → isNamed l) →
      makePlan (.byItem n policy entries) r = .plan { mode := .byItem, shares := itemShares r.totals n entries r.lines })) ∧
  (∀ (n : Nat) (amounts : List Nat) (r : TabRecord), r.totals.total < amounts.sum →
    makePlan (.byAmount n amounts) r = .refused .overTotal 0 r.totals.total)

/-- R125: a new split on an OPEN tab whose total is 0 creates every share PAID, whatever its mode and share count; the plan is
written and the slot marked dirty; the tab goes to CLOSED and to the tail of the closed list; the hold it would have given is gone and no
notice is raised; paid-in-part stays as it was; the reply is OK with the state CLOSED and the shares. -/
def Obligations.ZeroTotalSplitClosesTab : Prop :=
  ∀ (s : State) (p : Port) (tag : Byte) (body : List Byte) (tab : Nat) (spec : SplitSpec) (i : SlotId) (r : TabRecord)
    (plan : SplitPlan),
    body.length ≤ maxBody → Admitted s p .split → s.check = .passed → readSplit body = some (tab, spec) →
    AtReadySlot s p tab i r → makePlan spec r = .plan plan → (s.dir tab).state = .opened → s.holdsAnother p tab = false →
    RecordSound r → r.totals.total = 0 →
    (∀ x ∈ plan.shares, x.state = .paid ∧ x.due = 0) ∧
    ∃ t, exec (.split p tag body) s = .next t ∧ t.recency = touched s i ∧
      SlotBecomes s t i (changedSlot (s.slot i) { r with plan := some plan }) ∧
      EntryBecomes s t tab { s.dir tab with state := .closed, holder := none } ∧
      HoldBecomes s t p none ∧ t.closedList = s.closedList ++ [tab] ∧ t.notices = s.notices ∧
      RepliedAt s t p .split tag .ok (splitReply tab .closed plan) ∧ OtherPortsKept s t p ∧
      { t with
        ports := s.ports, recency := s.recency, slots := s.slots, directory := s.directory, holds := s.holds,
        closedList := s.closedList } = s

/-- CANCEL SPLIT by the holder of a TENDERING tab that is not paid in part, at a READY slot with nobody waiting (R126, R105, R6): the plan
is removed, the slot is dirty and most recent, the tab is OPEN with no holder, the hold is gone without a notice, and the reply
carries the tab's total. With money taken it is answered PAID-IN-PART and the plan, the hold and its deadline stay. -/
def Obligations.CancelSplitReopensTab : Prop :=
  ∀ (s : State) (p : Port) (tag t0 t1 : Byte) (i : SlotId) (r : TabRecord),
    let tab := read2 t0 t1
    Admitted s p .cancelSplit → AtReadySlot s p tab i r → (s.dir tab).state = .tendering → (s.dir tab).holder = some p →
    ((s.dir tab).paidInPart = false →
      ∃ t, exec (.cancelSplit p tag [t0, t1]) s = .next t ∧ t.recency = touched s i ∧
        SlotBecomes s t i (changedSlot (s.slot i) { r with plan := none }) ∧
        EntryBecomes s t tab { s.dir tab with state := .opened, holder := none } ∧ HoldBecomes s t p none ∧
        RepliedAt s t p .cancelSplit tag .ok (num2 tab ++ num1 1 ++ money r.totals.total) ∧ OtherPortsKept s t p ∧
        { t with
          ports := s.ports, recency := s.recency, slots := s.slots, directory := s.directory, holds := s.holds } = s) ∧
    ((s.dir tab).paidInPart = true →
      ∃ t, exec (.cancelSplit p tag [t0, t1]) s = .next t ∧ t.recency = touched s i ∧
        RepliedAt s t p .cancelSplit tag .paidInPart (Detail.bytes { tab := tab }) ∧ OtherPortsKept s t p ∧
        { t with ports := s.ports, recency := s.recency } = s)

/-- TENDER by the holder that passes R133's checks, at a READY slot with nobody waiting (R104, R133 to R137): the share is credited by its
method, an entry is appended to the tender list, paid-in-part is set and the slot is dirty; when every share is then PAID the tab is CLOSED
at the tail of the closed list with no holder and no hold, and otherwise it stays TENDERING with a restarted deadline. One that fails a check
of R133 (the share index, a PAID share, the reserve of R135, a CARD amount) is answered with that check's status and figures: the deadline is
restarted and nothing else changes. A deadline counts from the model's present moment (assumption 5); the reserve takes a CARD tender as one
that pays its share (assumption 23), and a CARD tender's change or forfeit field holds 0 (assumption 29). -/
def Obligations.TenderCreditsItsShare : Prop :=
  (∀ (s : State) (p : Port) (tag : Byte) (body : List Byte) (f : TenderFields) (i : SlotId) (r : TabRecord)
    (plan : SplitPlan) (x : Share) (h : Hold),
    Admitted s p .tender → readTender body = some f → AtReadySlot s p f.tab i r → (s.dir f.tab).state = .tendering →
    (s.dir f.tab).holder = some p → s.hold p = some h → r.plan = some plan → plan.shares[f.share - 1]? = some x →
    x.state = .unpaid → reserveHolds r plan x f.method f.amount = true →
    (f.method = .card → f.amount = x.due - x.credited) →
    let credit := if f.method = .card then x.due - x.credited else min f.amount (x.due - x.credited)
    let credited : Share :=
      { x with credited := x.credited + credit, state := if x.credited + credit = x.due then .paid else .unpaid }
    let entry : TenderEntry :=
      { share := f.share, method := f.method, offered := f.amount, credited := credit,
        change := if f.method = .cash then some (f.amount - credit) else none,
        forfeit := if f.method = .voucher then some (f.amount - credit) else none }
    let plan' : SplitPlan := { plan with shares := plan.shares.set (f.share - 1) credited }
    let r' : TabRecord := { r with plan := some plan', tenders := r.tenders ++ [entry] }
    ∃ t, exec (.tender p tag body) s = .next t ∧ t.recency = touched s i ∧
      SlotBecomes s t i (changedSlot (s.slot i) r') ∧ OtherPortsKept s t p ∧
      (planAllPaid plan' = false →
        EntryBecomes s t f.tab { s.dir f.tab with paidInPart := true } ∧ t.closedList = s.closedList ∧
        HoldBecomes s t p (some { h with deadline := s.now + 1000 * s.timers.hold }) ∧
        RepliedAt s t p .tender tag .ok (tenderReply f entry credited r' plan' .tendering)) ∧
      (planAllPaid plan' = true →
        EntryBecomes s t f.tab { s.dir f.tab with paidInPart := true, state := .closed, holder := none } ∧
        t.closedList = s.closedList ++ [f.tab] ∧ HoldBecomes s t p none ∧
        RepliedAt s t p .tender tag .ok (tenderReply f entry credited r' plan' .closed)) ∧
      { t with
        ports := s.ports, recency := s.recency, slots := s.slots, directory := s.directory, holds := s.holds,
        closedList := s.closedList } = s) ∧
  (∀ (s : State) (p : Port) (tag : Byte) (body : List Byte) (f : TenderFields) (i : SlotId) (r : TabRecord)
    (plan : SplitPlan) (h : Hold) (status : Status) (d : Detail),
    Admitted s p .tender → readTender body = some f → AtReadySlot s p f.tab i r → (s.dir f.tab).state = .tendering →
    (s.dir f.tab).holder = some p → s.hold p = some h → r.plan = some plan → TenderRefused f r plan status d →
    ∃ t, exec (.tender p tag body) s = .next t ∧ t.recency = touched s i ∧
      HoldBecomes s t p (some { h with deadline := s.now + 1000 * s.timers.hold }) ∧
      RepliedAt s t p .tender tag status d.bytes ∧ OtherPortsKept s t p ∧
      { t with ports := s.ports, recency := s.recency, holds := s.holds } = s)

/-- RESUME at a READY slot with nobody waiting (R108): on a TENDERING tab held by none, by a till that holds no other tab, the till takes
the hold with a fresh deadline; on a TENDERING tab the till holds, the deadline is restarted. The reply carries the plan summary; the
record and the dirty flag do not change. A deadline counts from the model's present moment (assumption 5). -/
def Obligations.ResumeTakesOrKeepsHold : Prop :=
  ∀ (s : State) (p : Port) (tag t0 t1 : Byte) (i : SlotId) (r : TabRecord),
    let tab := read2 t0 t1
    Admitted s p .resume → AtReadySlot s p tab i r → (s.dir tab).state = .tendering →
    ((s.dir tab).holder = none → s.holdsAnother p tab = false →
      ∃ t, exec (.resume p tag [t0, t1]) s = .next t ∧ t.recency = touched s i ∧
        EntryBecomes s t tab { s.dir tab with holder := some p } ∧
        HoldBecomes s t p (some { tab := tab, deadline := s.now + 1000 * s.timers.hold }) ∧
        RepliedAt s t p .resume tag .ok (num2 tab ++ planSummary r) ∧ OtherPortsKept s t p ∧
        { t with ports := s.ports, recency := s.recency, directory := s.directory, holds := s.holds } = s) ∧
    (∀ h, (s.dir tab).holder = some p → s.hold p = some h →
      ∃ t, exec (.resume p tag [t0, t1]) s = .next t ∧ t.recency = touched s i ∧
        HoldBecomes s t p (some { h with deadline := s.now + 1000 * s.timers.hold }) ∧
        RepliedAt s t p .resume tag .ok (num2 tab ++ planSummary r) ∧ OtherPortsKept s t p ∧
        { t with ports := s.ports, recency := s.recency, holds := s.holds } = s)

/-- HOLD_EXPIRY (R106, R109): the moment is the deadline or later; the hold and the holder are gone; with paid-in-part clear the tab is OPEN
and its plan is removed if its record is in a READY slot, which is then dirty, while any other slot stays as it is; with paid-in-part set the
tab keeps its state, plan and tenders; a HOLD notice with cause EXPIRED is raised. The recency order does not move, and nothing else changes.
The moment is read on the model's clock (assumption 5). -/
def Obligations.HoldExpiryReleasesTab : Prop :=
  ∀ (s : State) (p : Port) (h : Hold), s.hold p = some h →
    ∃ t, exec (.holdExpiry p) s = .next t ∧ h.deadline ≤ t.now ∧ t.now = max s.now h.deadline ∧
      HoldEnded { s with now := max s.now h.deadline } t p h .expired

/-! ### Tills and stations -/

/-- AVAIL QUERY from a till (R63): the port's stale flag is set, an image in progress starts again from code 1, the reply is OK, and
nothing else changes. -/
def Obligations.AvailQueryMarksStale : Prop :=
  ∀ (s : State) (p : Port) (tag : Byte), Admitted s p .availQuery →
    ∃ t, exec (.availQuery p tag []) s = .next t ∧
      t = s.setPort p { repliedPort (s.port p) .availQuery tag .ok [] with
        stale := true, image := (s.port p).image.map (fun _ => 0) }

/-- HELLO from a station (R87, R92): the station is READY, every ticket of its queue QUEUED in its place with its number, revision and flags,
its sent list empty, its ack timer stopped and its resync counter 3; then overflow tickets are re-targeted (R91) and promoted (R72, R71), of which
there are none when the overflow list is empty; the reply counts the queue; a STATION notice with cause HELLO is raised exactly when it was DARK.
Nothing else changes. -/
def Obligations.HelloMakesStationReady : Prop :=
  ∀ (s : State) (p : Port) (tag : Byte), Admitted s p .hello →
    let helloed := { s.station p with
      ready := true, queue := (s.station p).queue.map (fun x => { x with state := .queued }), sent := [],
      ackTimer := none, resync := 3 }
    ∃ t u, exec (.hello p tag []) s = .next t ∧ Promoted (s.setStation p helloed) u ∧
      t.stations = u.stations ∧ t.overflow = u.overflow ∧
      (s.overflow = [] → StationBecomes s t p helloed ∧ t.overflow = []) ∧
      RepliedAt s t p .hello tag .ok (num1 (t.station p).queue.length) ∧ OtherPortsKept s t p ∧
      ((s.station p).ready = true → t.notices = s.notices ∧ t.dropped = s.dropped) ∧
      ((s.station p).ready = false →
        t.notices = (s.raise (.station p true .hello 0 (t.station p).queue.length)).notices ∧
        t.dropped = (s.raise (.station p true .hello 0 (t.station p).queue.length)).dropped) ∧
      { t with
        ports := s.ports, stations := s.stations, overflow := s.overflow, notices := s.notices, dropped := s.dropped } = s

/-- R76's table, with the ack timer of R75: a TAKEN at a station, for a ticket of its queue. A SENT ticket at its own revision
becomes SHOWN, leaves the sent list, and the ack timer restarts for the ticket then at the head or stops; a SENT or STALE ticket at another
revision only restarts the timer; a QUEUED or SHOWN ticket, a number with no ticket of this station, and a body that is not 3 bytes change
nothing. A TAKEN gets no reply and needs no request slot, in either phase. The ack timer counts from the model's present moment
(assumption 5); a STALE ticket named at its own revision is left to assumption 10. -/
def Obligations.TakenAnswersTicket : Prop :=
  ∀ (s : State) (p : Port) (tag : Byte), s.role p = .station →
    (∀ (t0 t1 rev : Byte) (x : Ticket), s.ticketOf p (read2 t0 t1) = some x → x.state = .sent → x.revision = rev →
      ∃ t, exec (.taken p tag [t0, t1, rev]) s = .next t ∧
        t.ticketOf p (read2 t0 t1) = some { x with state := .shown } ∧
        StationBecomes s t p { s.station p with
          queue := (s.station p).queue.map (fun y => if y.number = read2 t0 t1 then { y with state := .shown } else y),
          sent := (s.station p).sent.erase (read2 t0 t1),
          ackTimer :=
            if (s.station p).sent.erase (read2 t0 t1) = [] then none else some (s.now + 100 * s.timers.ack) } ∧
        t.port p = delimited (s.port p) ∧ (∀ q, q ≠ p → t.port q = s.port q) ∧
        { t with ports := s.ports, stations := s.stations } = s) ∧
    (∀ (t0 t1 rev : Byte) (x : Ticket), s.ticketOf p (read2 t0 t1) = some x → (x.state = .sent ∨ x.state = .stale) →
      x.revision ≠ rev →
      ∃ t, exec (.taken p tag [t0, t1, rev]) s = .next t ∧
        StationBecomes s t p { s.station p with
          ackTimer := if (s.station p).sent = [] then none else some (s.now + 100 * s.timers.ack) } ∧
        t.port p = delimited (s.port p) ∧ (∀ q, q ≠ p → t.port q = s.port q) ∧
        { t with ports := s.ports, stations := s.stations } = s) ∧
    (∀ (t0 t1 rev : Byte), (s.ticketOf p (read2 t0 t1) = none ∨
        ∃ x, s.ticketOf p (read2 t0 t1) = some x ∧ (x.state = .queued ∨ x.state = .shown)) →
      exec (.taken p tag [t0, t1, rev]) s = .next (s.setPort p (delimited (s.port p)))) ∧
    (∀ body : List Byte, body.length ≤ maxBody → body.length ≠ 3 →
      exec (.taken p tag body) s = .next (s.setPort p (delimited (s.port p))))

/-- START at a station, for a SHOWN or STALE ticket of its queue (R77): the started flag is set, its state and revision stay, and the
reply is OK with its number (a flag already set stays as it was). A QUEUED or SENT ticket, and a number with no ticket of this station, is
answered UNKNOWN-TICKET and nothing changes; that this holds also where the ticket's flag is set already is the model's reading
(assumption 28). -/
def Obligations.StartSetsStartedFlag : Prop :=
  ∀ (s : State) (p : Port) (tag t0 t1 : Byte), Admitted s p .start →
    (∀ x, s.ticketOf p (read2 t0 t1) = some x → (x.state = .shown ∨ x.state = .stale) →
      ∃ t, exec (.start p tag [t0, t1]) s = .next t ∧
        t.ticketOf p (read2 t0 t1) = some { x with started := true } ∧
        (∃ queue, StationBecomes s t p { s.station p with queue := queue } ∧
          queue = (s.station p).queue.map (fun y => if y.number = read2 t0 t1 then { y with started := true } else y)) ∧
        RepliedAt s t p .start tag .ok (num2 (read2 t0 t1)) ∧ OtherPortsKept s t p ∧
        { t with ports := s.ports, stations := s.stations } = s) ∧
    ((s.ticketOf p (read2 t0 t1) = none ∨
        ∃ x, s.ticketOf p (read2 t0 t1) = some x ∧ (x.state = .queued ∨ x.state = .sent)) →
      ∃ t, exec (.start p tag [t0, t1]) s = .next t ∧ OnlyReplied s t p .start tag .unknownTicket (Detail.bytes {}))

/-- BUMP at a station that passes the guard, for a SENT, SHOWN or STALE ticket of its queue (R78, R79, R80, R75, R10): the ticket leaves the
queue and the sent list and goes to the front of the recall list, which keeps 4; its tab's count falls by 1; the last accepted bump is now; then
overflow tickets are promoted (R72, R91), of which there are none when the overflow list is empty; the reply names the ticket and its tab. A
QUEUED ticket, or a number with no ticket of this station, is answered UNKNOWN-TICKET and nothing changes, the last accepted bump included. Within
the guard the BUMP is answered IGNORED and nothing changes. A ticket that enters a queue by promotion or creation stands by its rush flag (R71).
The guard and the ack timer read the model's clock (assumption 5). -/
def Obligations.BumpMovesTicketToRecallList : Prop :=
  (∀ (s : State) (p : Port) (tag t0 t1 : Byte), Admitted s p .bump →
    (∀ x, s.guardsBump p = false → s.ticketOf p (read2 t0 t1) = some x → x.state ≠ .queued →
      let bumped := { leftSent s (s.station p) (read2 t0 t1) with
        queue := (s.station p).queue.filter (fun y => y.number ≠ read2 t0 t1),
        recalls := ({ ticket := x, gone := false } :: (s.station p).recalls).take 4, lastBump := some s.now }
      ∃ t u, exec (.bump p tag [t0, t1]) s = .next t ∧
        Promoted ((s.setStation p bumped).setDir x.tab { s.dir x.tab with live := (s.dir x.tab).live - 1 }) u ∧
        t.stations = u.stations ∧ t.overflow = u.overflow ∧
        (s.overflow = [] → StationBecomes s t p bumped ∧ t.overflow = []) ∧
        EntryBecomes s t x.tab { s.dir x.tab with live := (s.dir x.tab).live - 1 } ∧
        RepliedAt s t p .bump tag .ok (num2 (read2 t0 t1) ++ num2 x.tab) ∧ OtherPortsKept s t p ∧
        { t with
          ports := s.ports, stations := s.stations, overflow := s.overflow, directory := s.directory } = s) ∧
    (s.guardsBump p = false →
      (s.ticketOf p (read2 t0 t1) = none ∨ ∃ x, s.ticketOf p (read2 t0 t1) = some x ∧ x.state = .queued) →
      ∃ t, exec (.bump p tag [t0, t1]) s = .next t ∧ OnlyReplied s t p .bump tag .unknownTicket (Detail.bytes {})) ∧
    (s.guardsBump p = true →
      ∃ t, exec (.bump p tag [t0, t1]) s = .next t ∧ OnlyReplied s t p .bump tag .ignored (Detail.bytes {}))) ∧
  (∀ (queue : List Ticket) (x : Ticket),
    (x.rush = false → enterQueue queue x = queue ++ [x]) ∧
    (x.rush = true → (∀ y ∈ queue, y.rush = false) → enterQueue queue x = x :: queue) ∧
    (x.rush = true → ∀ front y back, queue = front ++ y :: back → y.rush = true → (∀ z ∈ back, z.rush = false) →
      enterQueue queue x = front ++ y :: x :: back))

/-- RECALL at a station (R81, R10): the newest entry of the recall list, if it is not gone and the queue has room, goes to the head of the
queue, QUEUED with ever-transmitted clear and with its revision, started flag and original number; it keeps its number unless a live ticket has
it; its tab's count rises by 1. A gone entry is dropped and answered GONE; a full queue is answered KITCHEN-FULL and changes nothing. The
number R67 gives is the first, from the counter on and from 65,535 back to 1, that no live ticket has. -/
def Obligations.RecallPutsTicketAtHead : Prop :=
  (∀ (s : State) (p : Port) (tag : Byte) (e : RecallEntry) (rest : List RecallEntry),
    Admitted s p .recallTicket → (s.station p).recalls = e :: rest →
    (e.gone = false → (s.station p).queue.length < 24 →
      ∃ t n, exec (.recallTicket p tag []) s = .next t ∧
        (s.isLiveNumber e.ticket.number = false → n = e.ticket.number ∧ t.ticketCounter = s.ticketCounter) ∧
        (s.isLiveNumber e.ticket.number = true → n = s.freshNumber ∧ t.ticketCounter = nextNumber n) ∧
        StationBecomes s t p { s.station p with
          recalls := rest,
          queue := { e.ticket with number := n, station := p, state := .queued, everTransmitted := false } ::
            (s.station p).queue } ∧
        EntryBecomes s t e.ticket.tab { s.dir e.ticket.tab with live := (s.dir e.ticket.tab).live + 1 } ∧
        RepliedAt s t p .recallTicket tag .ok (num2 n ++ num2 e.ticket.tab) ∧ OtherPortsKept s t p ∧
        { t with
          ports := s.ports, stations := s.stations, directory := s.directory, ticketCounter := s.ticketCounter } = s) ∧
    (e.gone = true →
      ∃ t, exec (.recallTicket p tag []) s = .next t ∧ StationBecomes s t p { s.station p with recalls := rest } ∧
        RepliedAt s t p .recallTicket tag .gone (Detail.bytes {}) ∧ OtherPortsKept s t p ∧
        { t with ports := s.ports, stations := s.stations } = s) ∧
    (e.gone = false → 24 ≤ (s.station p).queue.length →
      ∃ t, exec (.recallTicket p tag []) s = .next t ∧
        OnlyReplied s t p .recallTicket tag .kitchenFull (Detail.bytes {}))) ∧
  (∀ s : State, 1 ≤ s.ticketCounter → s.ticketCounter ≤ 65535 → s.liveTickets.length ≤ 624 →
    1 ≤ s.freshNumber ∧ s.freshNumber ≤ 65535 ∧ s.isLiveNumber s.freshNumber = false ∧
    ∃ k, s.freshNumber = nextNumber^[k] s.ticketCounter ∧
      ∀ j, j < k → s.isLiveNumber (nextNumber^[j] s.ticketCounter) = true)

/-- ACK_TIMER_EXPIRY (R88, R89, R90, R91, R92): a running ack timer's station goes DARK with its sent list empty and its timer stopped, the moment
is the timer's or later, and those of its tickets that were SENT are QUEUED; its unstarted tickets move to a READY alternate as far as there is
room, and re-targeting and promotion (R72) follow; with no READY alternate and no overflow ticket its tickets stay; a STATION notice carries how
many moved and how many remain. IMAGE_PERIOD_EXPIRY (R96): every resync counter below 3 is raised by 1 and the timer starts again. The moments
are read on the model's clock (assumption 5). -/
def Obligations.TimersDarkenAndRaiseResync : Prop :=
  (∀ (s : State) (p : Port) (d : Nat), (s.station p).ackTimer = some d →
    ∃ t u moved, exec (.ackTimerExpiry p) s = .next t ∧
      DarkHandled { s with now := max s.now d } u p moved ∧
      t = u.raise (.station p false .ackTimeout moved (u.station p).queue.length) ∧
      (s.readyAlternate p = none → s.overflow = [] →
        t.now = max s.now d ∧ moved = 0 ∧
        StationBecomes s t p { s.station p with
          ready := false, sent := [], ackTimer := none,
          queue := (s.station p).queue.map (fun x =>
            if x.number ∈ (s.station p).sent then { x with state := .queued } else x) } ∧
        t.notices = (s.raise (.station p false .ackTimeout 0 (s.station p).queue.length)).notices ∧
        t.dropped = (s.raise (.station p false .ackTimeout 0 (s.station p).queue.length)).dropped ∧
        { t with now := s.now, stations := s.stations, notices := s.notices, dropped := s.dropped } = s)) ∧
  (∀ (s : State) (d : Nat), s.imageTimer = some d →
    ∃ t, exec .imagePeriodExpiry s = .next t ∧ t.now = max s.now d ∧
      t.imageTimer = some (max s.now d + 1000 * s.timers.image) ∧
      (∀ p, t.station p = { s.station p with
        resync := if (s.station p).resync = 3 then 3 else (s.station p).resync + 1 }) ∧
      { t with now := s.now, stations := s.stations, imageTimer := s.imageTimer } = s)

/-! ### Sending -/

/-- TICKET_SEND under R73's conditions (R73, R75, R150): a TICKET frame for the first QUEUED or STALE ticket enters the port's queue with
the port's tag count, which is raised; the ticket is SENT at the tail of the sent list and ever-transmitted; the ack timer starts if the sent
list was empty. URGENT_IMAGE (R98) and TRICKLE_IMAGE (R97): the queue's image enters the port's transmit queue, and the counter becomes 0, or
is lowered by 1. Nothing else changes. The ack timer counts from the model's present moment (assumption 5), and a ticket waits while a trickle
image is due (assumption 16). -/
def Obligations.StationFramesAreSent : Prop :=
  ∀ (s : State) (p : Port),
    (∀ x, (s.station p).ready = true → (s.station p).sent.length < (s.station p).window → (s.port p).hasRoom = true →
      (s.station p).resync ≠ 3 → ((s.station p).resync = 0 ∨ (s.port p).frames ≠ []) →
      nextToSend (s.station p).queue = some x →
      ∃ t, exec (.ticketSend p) s = .next t ∧
        t.port p = { (s.port p).put
          { kind := .ticket, tag := BitVec.ofNat 8 (s.port p).tagCount, body := ticketBody x, source := .own } with
          tagCount := nextTag (s.port p).tagCount } ∧ (∀ q, q ≠ p → t.port q = s.port q) ∧
        StationBecomes s t p { s.station p with
          queue := (s.station p).queue.map (fun y =>
            if y.number = x.number then { y with state := .sent, everTransmitted := true } else y),
          sent := (s.station p).sent ++ [x.number],
          ackTimer := if (s.station p).sent = [] then some (s.now + 100 * s.timers.ack) else (s.station p).ackTimer } ∧
        { t with ports := s.ports, stations := s.stations } = s) ∧
    ((s.station p).ready = true → (s.station p).resync = 3 → (s.port p).hasRoom = true →
      ∃ t, exec (.urgentImage p) s = .next t ∧
        t.port p = { (s.port p).put
          { kind := .image, tag := BitVec.ofNat 8 (s.port p).tagCount, body := imageBody (s.station p).queue,
            source := .own } with tagCount := nextTag (s.port p).tagCount } ∧ (∀ q, q ≠ p → t.port q = s.port q) ∧
        StationBecomes s t p { s.station p with resync := 0 } ∧ { t with ports := s.ports, stations := s.stations } = s) ∧
    ((s.station p).ready = true → ((s.station p).resync = 1 ∨ (s.station p).resync = 2) → (s.port p).frames = [] →
      ∃ t, exec (.trickleImage p) s = .next t ∧
        t.port p = { (s.port p).put
          { kind := .image, tag := BitVec.ofNat 8 (s.port p).tagCount, body := imageBody (s.station p).queue,
            source := .own } with tagCount := nextTag (s.port p).tagCount } ∧ (∀ q, q ≠ p → t.port q = s.port q) ∧
        StationBecomes s t p { s.station p with resync := (s.station p).resync - 1 } ∧
        { t with ports := s.ports, stations := s.stations } = s)

/-- AVAILABILITY_OFFER with a change waiting and no copy outstanding (R62): the first 8 entries, or all if fewer, leave the list, and every
TILL port with room takes one AVAILABILITY frame of them, while a TILL port without room is made stale; no other port is touched.
AVAILABILITY_IMAGE_FRAME at a stale TILL port with an empty queue (R63, R158): one frame of up to 30 LOW or OUT items in ascending code, from
after the last item of the image's frame before it, or from code 1 with the mark first, goes on the line at once (assumption 17). When no such
item lies beyond it the frame is marked last, the stale flag is cleared and the image is over; otherwise the image goes on after its last item.
NOTICE_SEND (R169): the notice at the head goes to port 0 with the dropped mark, which
is then clear. -/
def Obligations.SwitchFramesAreSent : Prop :=
  (∀ s : State, s.availList ≠ [] → s.offerOutstanding = false →
    ∃ t, exec .availabilityOffer s = .next t ∧ t.availList = s.availList.drop 8 ∧
      (∀ p, (s.role p).isTill = true → (s.port p).hasRoom = true →
        t.port p = { (s.port p).put
          { kind := .availability, tag := BitVec.ofNat 8 (s.port p).tagCount,
            body := num1 0 ++ num1 (s.availList.take 8).length ++ availabilityBytes (s.availList.take 8),
            source := .offer } with tagCount := nextTag (s.port p).tagCount }) ∧
      (∀ p, (s.role p).isTill = true → (s.port p).hasRoom = false →
        t.port p = { s.port p with stale := true, image := (s.port p).image.map (fun _ => 0) }) ∧
      (∀ p, (s.role p).isTill = false → t.port p = s.port p) ∧
      { t with ports := s.ports, availList := s.availList } = s) ∧
  (∀ (s : State) (p : Port), (s.role p).isTill = true → (s.port p).stale = true → (s.port p).frames = [] →
    ∃ t, exec (.availabilityImageFrame p) s = .next t ∧
      (let last := (s.port p).image.getD 0
       let short := s.shortItems last
       let body := num1 (1 + (if short.length ≤ 30 then 2 else 0) + (if last = 0 then 4 else 0))
         ++ num1 (short.take 30).length ++ availabilityBytes (short.take 30)
       t.port p = { ownFramePort (s.port p) .availability body .own with
         stale := decide (30 < short.length),
         image := if short.length ≤ 30 then none else ((short.take 30).getLast?).map AvailEntry.item } ∧
       (t.port p).sending =
         some { kind := .availability, tag := BitVec.ofNat 8 (s.port p).tagCount, body := body, source := .own } ∧
       (t.port p).queue = []) ∧
      (∀ q, q ≠ p → t.port q = s.port q) ∧ { t with ports := s.ports } = s) ∧
  (∀ (s : State) (last : Nat), tableRising s.items = true →
    ((s.shortItems last).map AvailEntry.item).Pairwise (· < ·) ∧
    ∀ e, e ∈ s.shortItems last ↔ last < e.item ∧ availabilityOf (s.item e.item) ≠ .inStock ∧
      e.availability = availabilityOf (s.item e.item) ∧ e.stock = stockOf (s.item e.item)) ∧
  (∀ (s : State) (n : Notice) (rest : List Notice), s.notices = n :: rest → (s.port 0).hasRoom = true →
    ∃ t, exec .noticeSend s = .next t ∧ t.notices = rest ∧ t.dropped = false ∧
      t.port 0 = { (s.port 0).put
        { kind := .notice, tag := BitVec.ofNat 8 (s.port 0).tagCount, body := noticeBody s.dropped n, source := .own } with
        tagCount := nextTag (s.port 0).tagCount } ∧
      (∀ q, q ≠ 0 → t.port q = s.port q) ∧
      { t with ports := s.ports, notices := s.notices, dropped := s.dropped } = s)

/-! ### The office controller's requests -/

/-- LOAD PORTS while no save runs (R165, R141, R111, R151): the entries are applied in the order they stand: one that changes nothing does
nothing, one that gives a till another group ends its hold with cause GROUP-CHANGE and leaves its port, and one that changes a role resets the
port first; the reply counts them. The port table afterwards holds them. A port whose one entry changes its role has its lane port as after part
reset and its station DARK with no recall list, and held tabs of a till are let go. A request behind the one that a reset removes waits for
WAITER_EXECUTES (assumption 13). -/
def Obligations.LoadPortsAppliesEntries : Prop :=
  ∀ (s : State) (tag : Byte) (body : List Byte) (entries : List (Port × PortRole)),
    body.length ≤ maxBody → OfficeAdmitted s → s.save = none → readLoadPorts body = some entries →
    ∃ t u, exec (.loadPorts 0 tag body) s = .next t ∧
      PortEntriesLoaded (afterTaking s 0 .loadPorts tag) entries u ∧
      t = withReply u 0 .loadPorts tag .ok (num1 entries.length) ∧
      t.portTable = (entries.foldl (fun acc e => acc.setRole e.1 e.2) s).portTable ∧
      RepliedAt s t 0 .loadPorts tag .ok (num1 entries.length) ∧
      ((∀ e ∈ entries, s.role e.1 = e.2) → OnlyReplied s t 0 .loadPorts tag .ok (num1 entries.length)) ∧
      (∀ q r, entries = [(q, r)] → s.role q ≠ r → ¬ ((s.role q).isTill = true ∧ r.isTill = true) →
        t.port q = LanePort.fresh ∧ (t.station q).ready = false ∧ (t.station q).recalls = [] ∧
        (t.station q).sent = [] ∧ (t.station q).resync = 3 ∧ ((s.role q).isTill = true → t.hold q = none)) ∧
      t.items = s.items ∧ t.tabMemory = s.tabMemory ∧ t.freeList = s.freeList ∧ t.closedList = s.closedList ∧
      t.phase = s.phase ∧ t.timers = s.timers ∧ t.availList = s.availList ∧ t.flash = s.flash

/-- LOAD TAXES and LOAD GROUPS while no save runs (R43, R44): each rate is clamped to 3,000, the rates replace the table at once, the reply
carries the rates in effect, and nothing else changes. While a save runs they are answered BUSY and change nothing (R173); that a malformed body
is then answered BUSY as well is the model's reading (assumption 14). -/
def Obligations.LoadRatesClampAndReplace : Prop :=
  ∀ (s : State) (tag : Byte), OfficeAdmitted s →
    (∀ a0 a1 b0 b1 c0 c1 d0 d1 : Byte, s.save = none →
      let rates : Vector Nat 4 := #v[min (read2 a0 a1) 3000, min (read2 b0 b1) 3000, min (read2 c0 c1) 3000,
        min (read2 d0 d1) 3000]
      ∃ t, exec (.loadTaxes 0 tag [a0, a1, b0, b1, c0, c1, d0, d1]) s = .next t ∧ t.taxRates = rates ∧
        OnlyReplied { s with taxRates := rates } t 0 .loadTaxes tag .ok (rates.toList.flatMap num2)) ∧
    (∀ a0 a1 b0 b1 c0 c1 d0 d1 e0 e1 f0 f1 g0 g1 h0 h1 : Byte, s.save = none →
      let rates : Vector Nat 8 := #v[min (read2 a0 a1) 3000, min (read2 b0 b1) 3000, min (read2 c0 c1) 3000,
        min (read2 d0 d1) 3000, min (read2 e0 e1) 3000, min (read2 f0 f1) 3000, min (read2 g0 g1) 3000,
        min (read2 h0 h1) 3000]
      ∃ t, exec (.loadGroups 0 tag [a0, a1, b0, b1, c0, c1, d0, d1, e0, e1, f0, f1, g0, g1, h0, h1]) s = .next t ∧
        t.serviceRates = rates ∧
        OnlyReplied { s with serviceRates := rates } t 0 .loadGroups tag .ok (rates.toList.flatMap num2)) ∧
    (∀ body : List Byte, body.length ≤ maxBody → s.save ≠ none →
      (∃ t, exec (.loadTaxes 0 tag body) s = .next t ∧ OnlyReplied s t 0 .loadTaxes tag .busy (Detail.bytes {})) ∧
      (∃ t, exec (.loadGroups 0 tag body) s = .next t ∧ OnlyReplied s t 0 .loadGroups tag .busy (Detail.bytes {})))

/-- LOAD ITEMS while no save runs (R46): every entry takes effect in frame order, so an item not named keeps its entry and an item named
takes its last one; the availability changes of the items named are latched (R51, R61); the reply counts the entries; nothing but the item table,
the availability list, STOCK notices and till ports' stale flags can change. -/
def Obligations.LoadItemsReplacesEntries : Prop :=
  ∀ (s : State) (tag : Byte) (body : List Byte) (entries : List (Nat × Option Item)),
    body.length ≤ maxBody → OfficeAdmitted s → s.save = none → readItemList 8 body = some entries →
    ∃ t, exec (.loadItems 0 tag body) s = .next t ∧
      (∀ c, (∀ e ∈ entries, e.1 ≠ c) → t.item c = s.item c) ∧
      (∀ front c x rest, entries = front ++ (c, x) :: rest → (∀ e ∈ rest, e.1 ≠ c) → t.item c = x) ∧
      RepliedAt s t 0 .loadItems tag .ok (num1 entries.length) ∧
      LatchedAndReplied s s t (entries.map Prod.fst) 0 .loadItems tag .ok (num1 entries.length) ∧
      { t with
        ports := s.ports, items := s.items, availList := s.availList, notices := s.notices, dropped := s.dropped } = s

/-- LOAD STATIONS while no save runs (R166, R74, R75): the entries are applied in the order they stand and the reply counts them. An entry is
replaced whole, with the window clamped to 1 to 4. SENT tickets beyond the new window, from the tail of the sent list, return to QUEUED with their
revision and flags kept and leave the sent list, the others staying as they are; the head of the sent list is never among them, so the ack
timer runs on. Every other station is as it was, and nothing else changes. -/
def Obligations.LoadStationsReplacesEntry : Prop :=
  ∀ (s : State) (tag : Byte) (body : List Byte) (entries : List (Port × StationEntry)),
    body.length ≤ maxBody → OfficeAdmitted s → s.save = none → readLoadStations body = some entries →
    ∃ t, exec (.loadStations 0 tag body) s = .next t ∧
      t.stations = (entries.foldl State.loadStation s).stations ∧
      RepliedAt s t 0 .loadStations tag .ok (num1 entries.length) ∧ OtherPortsKept s t 0 ∧
      { t with ports := s.ports, stations := s.stations } = s ∧
      (∀ q, (∀ x ∈ entries, x.1 ≠ q) → t.station q = s.station q) ∧
      ∀ q e, entries = [(q, e)] →
        1 ≤ e.window ∧ e.window ≤ 4 ∧ (∀ p, p ≠ q → t.station p = s.station p) ∧
        (t.station q).sent.length = min (s.station q).sent.length e.window ∧
        (t.station q).alternate = e.alternate ∧ (t.station q).balance = e.balance ∧ (t.station q).window = e.window ∧
        ((s.station q).sent.Nodup →
          t.station q = { s.station q with
            alternate := e.alternate, balance := e.balance, window := e.window,
            sent := (s.station q).sent.take e.window,
            queue := (s.station q).queue.map (fun x =>
              if x.number ∈ (s.station q).sent.drop e.window then { x with state := .queued } else x) })

/-- LOAD TIMERS while no save runs (R167): each value clamped to its range takes effect, no deadline already set moves, and the reply carries
the values in effect. NOTICE MASK with bit 7 clear (R170): the byte becomes the mask, and the reply carries it. Nothing else changes. -/
def Obligations.TimersAndMaskTakeEffect : Prop :=
  (∀ (s : State) (tag h0 h1 a i0 i1 b : Byte), OfficeAdmitted s → s.save = none →
    let times : Timers :=
      { hold := max 10 (min (read2 h0 h1) 600), ack := max 5 (min a.toNat 100),
        image := max 5 (min (read2 i0 i1) 300), bump := min b.toNat 30 }
    ∃ t, exec (.loadTimers 0 tag [h0, h1, a, i0, i1, b]) s = .next t ∧ t.timers = times ∧
      OnlyReplied { s with timers := times } t 0 .loadTimers tag .ok
        (num2 times.hold ++ num1 times.ack ++ num2 times.image ++ num1 times.bump)) ∧
  (∀ (s : State) (tag m : Byte), OfficeAdmitted s → m.getLsbD 7 = false →
    ∃ t, exec (.noticeMask 0 tag [m]) s = .next t ∧ t.mask = m ∧
      OnlyReplied { s with mask := m } t 0 .noticeMask tag .ok [m]) ∧
  (∀ (s : State) (tag m : Byte), OfficeAdmitted s → m.getLsbD 7 = true →
    ∃ t, exec (.noticeMask 0 tag [m]) s = .next t ∧ OnlyReplied s t 0 .noticeMask tag .parse (Detail.bytes {}))

/-- SET STOCK of a defined item while no save runs (R49): level and stock become the value, sold 0, the low mark is kept or is 0 when tracking
begins. ADJUST STOCK of a tracked item (R50): the delta, reduced so that stock stays at 0 or above and level at 9,999 or below, goes to
stock and level together, and sold stays. The replies carry the figures afterwards. No other item changes, and a change of the item's
availability is latched (R51). A latched change (R61) updates the item's entry in place; without one it joins the tail with a STOCK notice; and
with 32 entries it is the one entry of the emptied list, with its notice, and every TILL port is stale. -/
def Obligations.StockRequestsSetTheFigures : Prop :=
  (∀ (s : State) (e : AvailEntry),
    ((∃ x ∈ s.availList, x.item = e.item) →
      s.latchChange e = { s with availList := s.availList.map (fun x => if x.item = e.item then e else x) }) ∧
    ((∀ x ∈ s.availList, x.item ≠ e.item) → s.availList.length < 32 →
      s.latchChange e =
        { s with availList := s.availList ++ [e] }.raise (.stock e.item e.availability e.stock)) ∧
    ((∀ x ∈ s.availList, x.item ≠ e.item) → 32 ≤ s.availList.length →
      (s.latchChange e).availList = [e] ∧
      (s.latchChange e).notices = (s.raise (.stock e.item e.availability e.stock)).notices ∧
      (s.latchChange e).dropped = (s.raise (.stock e.item e.availability e.stock)).dropped ∧
      (∀ p, (s.latchChange e).port p = if (s.role p).isTill then
        { s.port p with stale := true, image := (s.port p).image.map (fun _ => 0) } else s.port p) ∧
      { s.latchChange e with
        ports := s.ports, availList := s.availList, notices := s.notices, dropped := s.dropped } = s)) ∧
  (∀ (s : State) (tag c0 c1 v0 v1 : Byte) (x : Item),
    OfficeAdmitted s → s.save = none → isItemCode (read2 c0 c1) = true → s.item (read2 c0 c1) = some x →
    (read2 v0 v1 ≤ 9999 →
      ∃ t new, exec (.setStock 0 tag [c0, c1, v0, v1]) s = .next t ∧
        new = { level := read2 v0 v1, stock := read2 v0 v1, sold := 0,
                lowMark := (x.tracking.map Tracking.lowMark).getD 0 } ∧
        t.item (read2 c0 c1) = some { x with tracking := some new } ∧ (∀ d, d ≠ read2 c0 c1 → t.item d = s.item d) ∧
        RepliedAt s t 0 .setStock tag .ok (num2 new.stock ++ num2 0 ++ num2 new.level ++
          num1 (availabilityCode (availabilityOf (some { x with tracking := some new })))) ∧
        LatchedAndReplied s s t [read2 c0 c1] 0 .setStock tag .ok (num2 new.stock ++ num2 0 ++ num2 new.level ++
          num1 (availabilityCode (availabilityOf (some { x with tracking := some new })))) ∧
        { t with
          ports := s.ports, items := s.items, availList := s.availList, notices := s.notices, dropped := s.dropped } = s) ∧
    (∀ k, x.tracking = some k → k.balanced → -9999 ≤ readSigned2 v0 v1 → readSigned2 v0 v1 ≤ 9999 →
      ∃ t d new, exec (.adjustStock 0 tag [c0, c1, v0, v1]) s = .next t ∧
        (0 ≤ readSigned2 v0 v1 → d = min (readSigned2 v0 v1) (9999 - (k.level : Int))) ∧
        (readSigned2 v0 v1 < 0 → d = max (readSigned2 v0 v1) (-(k.stock : Int))) ∧
        (new.stock : Int) = k.stock + d ∧ (new.level : Int) = k.level + d ∧ new.sold = k.sold ∧
        new.lowMark = k.lowMark ∧ t.item (read2 c0 c1) = some { x with tracking := some new } ∧
        (∀ e, e ≠ read2 c0 c1 → t.item e = s.item e) ∧
        RepliedAt s t 0 .adjustStock tag .ok (signed2 d ++ num2 new.stock ++ num2 new.level ++
          num1 (availabilityCode (availabilityOf (some { x with tracking := some new })))) ∧
        LatchedAndReplied s s t [read2 c0 c1] 0 .adjustStock tag .ok (signed2 d ++ num2 new.stock ++ num2 new.level ++
          num1 (availabilityCode (availabilityOf (some { x with tracking := some new })))) ∧
        { t with
          ports := s.ports, items := s.items, availList := s.availList, notices := s.notices, dropped := s.dropped } = s))

/-- COLLECT (R138, R139, R140, R8, R40): the first tab of the closed list with no live tickets, when it stands in a READY slot with nobody
waiting, is summarised in the reply and becomes FREE at the tail of the free list; its slot is EMPTY without a write-back, its recall
entries are gone, and an audit that is examining it notes that it was freed. With no such tab the reply is EMPTY with the closed list's length.
Nothing else changes. -/
def Obligations.CollectSummarisesAndFrees : Prop :=
  (∀ (s : State) (tag : Byte) (tab : Nat) (i : SlotId) (r : TabRecord),
    OfficeAdmitted s → s.closedList.find? (fun u => (s.dir u).live = 0) = some tab → (s.dir tab).state = .closed →
    (s.dir tab).holder = none → (s.dir tab).slot = some i → (s.slot i).state = .ready → (s.slot i).tab = some tab →
    (s.slot i).record = some r → (s.slot i).waits = [] → 0 ∉ s.engineWait →
    ∃ t, exec (.collect 0 tag []) s = .next t ∧ t.recency = touched s i ∧
      EntryBecomes s t tab DirEntry.formatted ∧ t.freeList = s.freeList ++ [tab] ∧
      t.closedList = s.closedList.filter (fun u => u ≠ tab) ∧ SlotBecomes s t i CacheSlot.cleared ∧
      (∀ p, t.station p = { s.station p with
        recalls := (s.station p).recalls.map (fun e => if e.ticket.tab = tab then { e with gone := true } else e) }) ∧
      t.audit = s.audit.map (fun a => if a.position = tab then { a with freed := true } else a) ∧
      RepliedAt s t 0 .collect tag .ok (summaryBytes r) ∧ OtherPortsKept s t 0 ∧
      { t with
        ports := s.ports, recency := s.recency, slots := s.slots, directory := s.directory, freeList := s.freeList,
        closedList := s.closedList, stations := s.stations, audit := s.audit } = s) ∧
  (∀ (s : State) (tag : Byte), OfficeAdmitted s → (∀ u ∈ s.closedList, (s.dir u).live ≠ 0) →
    ∃ t, exec (.collect 0 tag []) s = .next t ∧
      OnlyReplied s t 0 .collect tag .empty (Detail.bytes { figure := s.closedList.length }))

/-- DISCARD TAB (R15, R8, R40): a DAMAGED tab with no live tickets becomes FREE at the directory alone; an OPEN tab in a READY slot with nobody
waiting, with no ACTIVE line and no live ticket, becomes FREE and its slot EMPTY without a write-back; its recall entries are gone, and an
audit that is examining it notes that it was freed. An OPEN tab with an ACTIVE line is answered TAB-STATE, one with live tickets KITCHEN-OPEN, and
stays. Nothing else changes. -/
def Obligations.DiscardFreesTab : Prop :=
  ∀ (s : State) (tag t0 t1 : Byte),
    let tab := read2 t0 t1
    let freed := fun t : State =>
      EntryBecomes s t tab DirEntry.formatted ∧ t.freeList = s.freeList ++ [tab] ∧
      t.closedList = s.closedList.filter (fun u => u ≠ tab) ∧
      (∀ p, t.station p = { s.station p with
        recalls := (s.station p).recalls.map (fun e => if e.ticket.tab = tab then { e with gone := true } else e) }) ∧
      t.audit = s.audit.map (fun a => if a.position = tab then { a with freed := true } else a) ∧
      RepliedAt s t 0 .discardTab tag .ok (num2 tab) ∧ OtherPortsKept s t 0 ∧
      { t with
        ports := s.ports, recency := s.recency, slots := s.slots, directory := s.directory, freeList := s.freeList,
        closedList := s.closedList, stations := s.stations, audit := s.audit } = s
    OfficeAdmitted s → isTab tab = true →
    ((s.dir tab).state = .damaged → (s.dir tab).holder = none →
      ((s.dir tab).live = 0 →
        ∃ t, exec (.discardTab 0 tag [t0, t1]) s = .next t ∧ t.slots = s.slots ∧ t.recency = s.recency ∧ freed t) ∧
      ((s.dir tab).live ≠ 0 →
        ∃ t, exec (.discardTab 0 tag [t0, t1]) s = .next t ∧
          OnlyReplied s t 0 .discardTab tag .kitchenOpen (Detail.bytes { tab := tab }))) ∧
    (∀ i r, (s.dir tab).state = .opened → (s.dir tab).slot = some i → (s.slot i).state = .ready →
      (s.slot i).tab = some tab → (s.slot i).record = some r → (s.slot i).waits = [] → 0 ∉ s.engineWait →
      ((∀ l ∈ r.lines, l.state ≠ .active) → (s.dir tab).live = 0 → (s.dir tab).holder = none →
        ∃ t, exec (.discardTab 0 tag [t0, t1]) s = .next t ∧ t.recency = touched s i ∧
          SlotBecomes s t i CacheSlot.cleared ∧ freed t) ∧
      ((∀ l ∈ r.lines, l.state ≠ .active) → (s.dir tab).live ≠ 0 →
        ∃ t, exec (.discardTab 0 tag [t0, t1]) s = .next t ∧ t.recency = touched s i ∧
          RepliedAt s t 0 .discardTab tag .kitchenOpen (Detail.bytes { tab := tab }) ∧ OtherPortsKept s t 0 ∧
          { t with ports := s.ports, recency := s.recency } = s) ∧
      ((∃ l ∈ r.lines, l.state = .active) →
        ∃ t, exec (.discardTab 0 tag [t0, t1]) s = .next t ∧ t.recency = touched s i ∧
          RepliedAt s t 0 .discardTab tag .tabState (Detail.bytes { tab := tab }) ∧ OtherPortsKept s t 0 ∧
          { t with ports := s.ports, recency := s.recency } = s))

/-- CANCEL TICKET of a live ticket (R85, R84, R75, R72, R10): the ticket leaves its station's queue and sent list, the ack timer following, with
promotion after it, or leaves the overflow list; its tab's count falls by 1; a WITHDRAW is offered if it was ever transmitted and its station's
port is a STATION port; the reply carries its number, tab, station and tab lines; nothing else changes. With nothing in the overflow list, and
with a ticket of that list, this is what becomes of every station. With no live ticket of that number the reply is UNKNOWN-TICKET and nothing
changes. An ack timer that restarts reads the model's clock (assumption 5). -/
def Obligations.CancelTicketRemovesTicket : Prop :=
  ∀ (s : State) (tag n0 n1 : Byte), OfficeAdmitted s → read2 n0 n1 ≠ 0 →
    (∀ x, s.liveTickets.find? (fun u => u.number = read2 n0 n1) = some x →
      let fields := num2 x.number ++ num2 x.tab ++ num1 x.station.val ++ num1 x.lines.length ++
        x.lines.flatMap (fun l => num1 l.line)
      let removed := { leftSent s (s.station x.station) x.number with
        queue := (s.station x.station).queue.filter (fun u => u.number ≠ x.number) }
      ∃ t u v, exec (.cancelTicket 0 tag [n0, n1]) s = .next t ∧
        TicketRemoved (afterTaking s 0 .cancelTicket tag) u x ∧ WithdrawOffered u v x ∧
        t = withReply v 0 .cancelTicket tag .ok fields ∧
        RepliedAt s t 0 .cancelTicket tag .ok fields ∧
        EntryBecomes s t x.tab { s.dir x.tab with live := (s.dir x.tab).live - 1 } ∧
        { t with ports := s.ports, stations := s.stations, overflow := s.overflow, directory := s.directory } = s ∧
        ((x.everTransmitted = false ∨ s.role x.station ≠ .station) → OtherPortsKept s t 0 ∧
          (s.overflow = [] → StationBecomes s t x.station removed ∧ t.overflow = []) ∧
          ((∃ y ∈ s.overflow, y.number = x.number) →
            t.stations = s.stations ∧ t.overflow = s.overflow.filter (fun y => y.number ≠ x.number)))) ∧
    (s.isLiveNumber (read2 n0 n1) = false →
      ∃ t, exec (.cancelTicket 0 tag [n0, n1]) s = .next t ∧
        OnlyReplied s t 0 .cancelTicket tag .unknownTicket (Detail.bytes {}))

/-- FLUSH TABS (R36, R37): with no READY and dirty slot the reply is OK with 0 at once; otherwise each such slot becomes WRITING with
nothing incoming and its wait list kept, its write-back enters the memory operation queue in ascending slot order, and no reply is sent yet.
The other slots, the directory and tab memory are as they were. -/
def Obligations.FlushQueuesDirtySlots : Prop :=
  ∀ (s : State) (tag : Byte), OfficeAdmitted s →
    (s.flushSlots = [] →
      ∃ t, exec (.flushTabs 0 tag []) s = .next t ∧ OnlyReplied s t 0 .flushTabs tag .ok [0]) ∧
    (s.flushSlots ≠ [] →
      ∃ t, exec (.flushTabs 0 tag []) s = .next t ∧
        t.flush = some { remaining := s.flushSlots, written := 0, firstFault := none } ∧
        t.memQueue = s.memQueue ++ s.flushSlots.map MemOp.writeBack ∧
        (∀ i, ((s.slot i).state = .ready ∧ (s.slot i).dirty = true) →
          t.slot i = { s.slot i with state := .writing, incoming := .none }) ∧
        (∀ i, ¬ ((s.slot i).state = .ready ∧ (s.slot i).dirty = true) → t.slot i = s.slot i) ∧
        (t.port 0).request = some { kind := .flushTabs, tag := tag } ∧ (t.port 0).frames = (s.port 0).frames ∧
        (∀ q, q ≠ 0 → t.port q = s.port q) ∧
        { t with ports := s.ports, flush := s.flush, memQueue := s.memQueue, slots := s.slots } = s)

/-- AUDIT TABS while no audit runs (R38, R39, R41): the reply is ACCEPTED, and the walk stands at the first tab that is OPEN, TENDERING or CLOSED
and not cached, with its audit read queued and the cached tabs passed on the way counted skipped; with none to read it is over with an AUDIT
DONE notice. While an audit runs the reply is BUSY and nothing changes. -/
def Obligations.AuditWalkStarts : Prop :=
  ∀ (s : State) (tag : Byte), OfficeAdmitted s →
    (s.audit = none → ∀ k next, auditLook (s.directory.filter (fun e => 1 ≤ e.1)) = (k, next) →
      ∃ t, exec (.auditTabs 0 tag []) s = .next t ∧ RepliedAt s t 0 .auditTabs tag .accepted [] ∧ OtherPortsKept s t 0 ∧
        (∀ u, next = some u → t.auditQueued = some u ∧ t.notices = s.notices ∧
          t.audit = some { position := u, verified := 0, damaged := 0, skipped := k, firstDamaged := none, freed := false }) ∧
        (next = none → t.audit = none ∧ t.auditQueued = s.auditQueued ∧
          t.notices = (s.raise (.auditDone 0 0 k none)).notices) ∧
        { t with
          ports := s.ports, audit := s.audit, auditQueued := s.auditQueued, notices := s.notices,
          dropped := s.dropped } = s) ∧
    (s.audit ≠ none →
      ∃ t, exec (.auditTabs 0 tag []) s = .next t ∧ OnlyReplied s t 0 .auditTabs tag .busy (Detail.bytes {}))

/-- RESET PORT (R151, R152, R42, R93, R111): port 0 is answered NOT-PERMITTED; any other port has its assembly, request slot, transmit queue,
stale flag, image and tag count as after part reset, its request gone from every wait list, a till's hold ended with cause PORT-RESET as by an
expiry, and its station DARK after the dark handling, with its recall list empty and its resync counter 3. The reply carries the port; the port
table and the other ports stay. A request behind the one removed waits for WAITER_EXECUTES (assumption 13). -/
def Obligations.ResetPortClearsPort : Prop :=
  ∀ (s : State) (tag : Byte), OfficeAdmitted s →
    (∃ t, exec (.resetPort 0 tag [0]) s = .next t ∧ OnlyReplied s t 0 .resetPort tag .notPermitted (Detail.bytes {})) ∧
    (∀ q : Port, q ≠ 0 →
      ∃ t u, exec (.resetPort 0 tag [BitVec.ofNat 8 q.val]) s = .next t ∧
        PortWasReset (afterTaking s 0 .resetPort tag) u q ∧ t = withReply u 0 .resetPort tag .ok (num1 q.val) ∧
        t.port q = LanePort.fresh ∧
        (∀ i, (t.slot i).waits = (s.slot i).waits.filter (fun w => w.port ≠ q)) ∧
        t.engineWait = s.engineWait.filter (fun r => r ≠ q) ∧ ((s.role q).isTill = true → t.hold q = none) ∧
        (t.station q).ready = false ∧ (t.station q).recalls = [] ∧ (t.station q).lastBump = none ∧
        (t.station q).sent = [] ∧ (t.station q).ackTimer = none ∧ (t.station q).resync = 3 ∧
        RepliedAt s t 0 .resetPort tag .ok (num1 q.val) ∧ (∀ r, r ≠ 0 → r ≠ q → t.port r = s.port r) ∧
        t.portTable = s.portTable ∧ t.items = s.items ∧ t.memQueue = s.memQueue ∧ t.freeList = s.freeList ∧
        t.closedList = s.closedList ∧ t.tabMemory = s.tabMemory)

/-- CHECK SPLIT while no check runs (R130): the reply is ACCEPTED, the check state RUNNING, and nothing else changes. A SPLIT at its tab's READY
slot while the check state is not PASSED (R128): NOT-RUN starts the check and the SPLIT stays at the head of its slot's wait list and joins the
engine wait list; RUNNING lets it join while fewer than 4 wait there, and otherwise answers BUSY; FAILED answers CHECK-FAILED. SPLIT_CHECK_END
(R129): the state becomes the outcome, the engine wait list is empty, and a CHECK notice carries outcome, cause and how many waited. FAILED answers
every SPLIT that waits CHECK-FAILED and takes it off its slot's wait list; PASSED lets each in turn, in the order they joined, execute where its
slot is READY, and stay at the head of any other slot until that is READY. The outcome is the command's (assumption 3); that all this is one
step, and that the requests behind wait for WAITER_EXECUTES, is the model's (assumption 13). -/
def Obligations.SplitCheckRunsAndEnds : Prop :=
  (∀ (s : State) (tag : Byte), OfficeAdmitted s → (∀ cause, s.check ≠ .running cause) →
    ∃ t, exec (.checkSplit 0 tag []) s = .next t ∧ t.check = .running .checkSplit ∧
      OnlyReplied { s with check := .running .checkSplit } t 0 .checkSplit tag .accepted []) ∧
  (∀ (s : State) (p : Port) (tag : Byte) (body : List Byte) (tab : Nat) (spec : SplitSpec) (i : SlotId) (r : TabRecord),
    body.length ≤ maxBody → Admitted s p .split → readSplit body = some (tab, spec) → AtReadySlot s p tab i r →
    (s.dir tab).state ≠ .free → (s.dir tab).state ≠ .damaged →
    let waits := { s.slot i with waits := [{ port := p, request := .split tab spec }] }
    (s.check = .notRun →
      exec (.split p tag body) s = .next
        { (afterTaking s p .split tag).setSlot i waits with
          check := .running .split, engineWait := s.engineWait ++ [p] }) ∧
    (∀ cause, s.check = .running cause → s.engineWait.length < 4 →
      exec (.split p tag body) s = .next
        { (afterTaking s p .split tag).setSlot i waits with engineWait := s.engineWait ++ [p] }) ∧
    (∀ cause, s.check = .running cause → 4 ≤ s.engineWait.length →
      ∃ t, exec (.split p tag body) s = .next t ∧ OnlyReplied s t p .split tag .busy (Detail.bytes { tab := tab })) ∧
    (s.check = .failed →
      ∃ t, exec (.split p tag body) s = .next t ∧ OnlyReplied s t p .split tag .checkFailed (Detail.bytes { tab := tab }))) ∧
  (∀ (s : State) (cause : CheckCause) (passed : Bool), s.check = .running cause → s.engineWait = [] →
    exec (.splitCheckEnd passed) s = .next
      ({ s with check := if passed then .passed else .failed }.raise (.check passed cause 0))) ∧
  (∀ (s : State) (cause : CheckCause) (p : Port) (i : SlotId) (w : Waiter) (rest : List Waiter) (k : SlotRequest),
    s.check = .running cause → s.engineWait = [p] → s.slotHeadedBy p = some i → (s.slot i).waits = w :: rest →
    w.port = p → (s.port p).request = some k →
    ∃ t, exec (.splitCheckEnd false) s = .next t ∧ t.check = .failed ∧ t.engineWait = [] ∧
      SlotBecomes s t i { s.slot i with waits := rest } ∧
      t.port p = (s.port p).put (replyFrame k.kind k.tag .checkFailed (requestDetail w.request).bytes) ∧
      (∀ q, q ≠ p → t.port q = s.port q) ∧ t.directory = s.directory ∧ t.holds = s.holds ∧ t.recency = s.recency) ∧
  (∀ (s : State) (cause : CheckCause),
    s.check = .running cause → s.engineWait.Nodup → ((allSlots.flatMap (fun i => (s.slot i).waits)).map Waiter.port).Nodup →
    (∀ p ∈ s.engineWait, s.slotHeadedBy p ≠ none ∧ (s.port p).request ≠ none) →
    ∃ t, exec (.splitCheckEnd false) s = .next t ∧ t.check = .failed ∧ t.engineWait = [] ∧
      t.notices = (s.raise (.check false cause s.engineWait.length)).notices ∧
      t.dropped = (s.raise (.check false cause s.engineWait.length)).dropped ∧
      (∀ i w rest, (s.slot i).waits = w :: rest →
        (w.port ∈ s.engineWait → t.slot i = { s.slot i with waits := rest } ∧
          ∀ k, (s.port w.port).request = some k → t.port w.port =
            (s.port w.port).put (replyFrame k.kind k.tag .checkFailed (requestDetail w.request).bytes)) ∧
        (w.port ∉ s.engineWait → t.slot i = s.slot i)) ∧
      (∀ i, (s.slot i).waits = [] → t.slot i = s.slot i) ∧ (∀ q, q ∉ s.engineWait → t.port q = s.port q) ∧
      { t with
        ports := s.ports, slots := s.slots, check := s.check, engineWait := s.engineWait, notices := s.notices,
        dropped := s.dropped } = s) ∧
  (∀ (s : State) (cause : CheckCause) (p : Port) (i : SlotId) (w : Waiter) (rest : List Waiter),
    s.check = .running cause → s.engineWait = [p] → s.slotHeadedBy p = some i → (s.slot i).waits = w :: rest →
    w.port = p → w.request.isSplit = true →
    let ended := { s with check := .passed, engineWait := [] }.raise (.check true cause 1)
    ((s.slot i).state = .ready →
      exec (.splitCheckEnd true) s = .next (perform i p w.request
        { ended.setSlot i { s.slot i with waits := rest } with recency := touched s i })) ∧
    ((s.slot i).state ≠ .ready → exec (.splitCheckEnd true) s = .next ended)) ∧
  (∀ (s : State) (cause : CheckCause), s.check = .running cause →
    exec (.splitCheckEnd true) s = .next (s.engineWait.foldl State.releaseSplit
      ({ s with check := .passed, engineWait := [] }.raise (.check true cause s.engineWait.length)))) ∧
  (∀ (s : State) (p : Port) (i : SlotId) (w : Waiter) (rest : List Waiter),
    s.check = .passed → p ∉ s.engineWait → s.slotHeadedBy p = some i → (s.slot i).waits = w :: rest → w.port = p →
    w.request.isSplit = true →
    ((s.slot i).state = .ready → s.releaseSplit p = perform i p w.request
      { s.setSlot i { s.slot i with waits := rest } with recency := touched s i }) ∧
    ((s.slot i).state ≠ .ready → s.releaseSplit p = s))

/-- SAVE CONFIG while no save runs (R173): ACCEPTED, and the erase begins. The chain it writes is the tables PORTS, GROUPS, TAXES, STATIONS and
TIMERS, then the item table in its own order, which is ascending code, by 64 entries to a node, and END (R174). SAVE_ERASE_COMPLETE within 500 ms
of its beginning (R174): the flash is erased and the first node begins. SAVE_NODE_VERIFIED within 500 ms: a node read back as written stands in
the flash and the next begins, or after END the save is over with SAVE DONE OK; a read-back that differs ends it with SAVE-FAILED. Either of them
that comes after the 500 ms changes nothing. SAVE_FAULT and SAVE_TIMEOUT end the save with SAVE-FAILED. After a write that fails or reads back
differently the flash holds the good nodes, the failing node's place as the fault left it, and erased bytes; after an erase that fails, a part of
the previous chain. What a fault leaves is the command's, and that a part of the chain is each byte as it was or erased is the model's reading
(assumption 3); the moments are on the model's clock (assumption 5). -/
def Obligations.SaveWritesTheChain : Prop :=
  ∀ s : State,
    (∀ tag, OfficeAdmitted s → s.save = none →
      ∃ t, exec (.saveConfig 0 tag []) s = .next t ∧
        OnlyReplied { s with save := some { stage := .erasing, began := s.now } } t 0 .saveConfig tag .accepted []) ∧
    (∃ (ports : List Port) (groups : List (List (Nat × Item))),
      ports.map (fun p => p.val) = List.range' 1 23 ∧ groups.flatten = s.items ∧
      (∀ g ∈ groups, 1 ≤ g.length ∧ g.length ≤ 64) ∧ (∀ g ∈ groups.dropLast, g.length = 64) ∧
      s.saveChain =
        [flashNode 1 (num1 23 ++ ports.flatMap (fun p => num1 p.val ++ roleBytes (s.role p))),
         flashNode 2 (s.serviceRates.toList.flatMap num2), flashNode 3 (s.taxRates.toList.flatMap num2),
         flashNode 4 (num1 23 ++ ports.flatMap (fun p => stationEntryBytes p (s.station p))),
         flashNode 5 (num2 s.timers.hold ++ num1 s.timers.ack ++ num2 s.timers.image ++ num1 s.timers.bump)] ++
        groups.map (fun g => flashNode 6 (num1 g.length ++ g.flatMap (fun e => itemEntryBytes e.1 e.2))) ++
        [flashNode 7 []]) ∧
    (∀ began, s.save = some { stage := .erasing, began := began } →
      (s.now ≤ began + 500 →
        exec .saveEraseComplete s = .next { s with flash := [], save := some { stage := .writing 0, began := s.now } }) ∧
      (began + 500 < s.now → exec .saveEraseComplete s = .next s)) ∧
    (∀ began k node, s.save = some { stage := .writing k, began := began } → s.saveChain[k]? = some node →
      (k + 1 < s.saveChain.length → s.now ≤ began + 500 →
        exec (.saveNodeVerified none) s = .next
          { s with flash := s.flash ++ node, save := some { stage := .writing (k + 1), began := s.now } }) ∧
      (k + 1 = s.saveChain.length → s.now ≤ began + 500 →
        exec (.saveNodeVerified none) s = .next
          ({ s with flash := s.flash ++ node, save := none }.raise (.saveDone true))) ∧
      (∀ read, nodePlace node read ≠ node → s.now ≤ began + 500 →
        exec (.saveNodeVerified (some read)) s = .next
          ({ s with flash := s.flash ++ nodePlace node read, save := none }.raise (.saveDone false))) ∧
      (∀ read, nodePlace node read = node → exec (.saveNodeVerified (some read)) s = exec (.saveNodeVerified none) s) ∧
      (∀ read, began + 500 < s.now → exec (.saveNodeVerified read) s = .next s) ∧
      (∀ left, exec (.saveFault left) s = .next
        ({ s with flash := s.flash ++ nodePlace node left, save := none }.raise (.saveDone false))) ∧
      (∀ left, exec (.saveTimeout left) s = .next
        ({ s with
          now := max s.now (began + 500), flash := s.flash ++ nodePlace node left, save := none }.raise (.saveDone false))) ∧
      (∀ left n, s.flash.length + node.length ≤ n → flashByte (s.flash ++ nodePlace node left) n = Config.erasedByte)) ∧
    (∀ began left, s.save = some { stage := .erasing, began := began } → ∃ part, PartOfChain s.flash left part ∧
      exec (.saveFault left) s = .next ({ s with flash := part, save := none }.raise (.saveDone false)) ∧
      exec (.saveTimeout left) s = .next
        ({ s with now := max s.now (began + 500), flash := part, save := none }.raise (.saveDone false)))

/-! ### The memory controller -/

/-- A record read passes when its tab number is the one asked for and the check word read with it is the CRC-16 of R154 over its tab number,
group, opening till, lines, totals, plan and tenders, in that order (R31); how each part stands in bytes is free (assumption 4).
MEMORY_OP_START with a free controller (R29, R30): the oldest waiting slot operation starts with 25 ms to run, or else the waiting audit
read. FETCH_COMPLETE within the limit (R31, R32, R9, R27, R25): a record that passes fills the slot, READY and clean when the directory keeps its
plan, and the first waiter executes, unless it is a SPLIT that the split engine keeps; one that fails makes the tab DAMAGED, its holder losing
the hold, empties the slot, answers every waiter TAB-DAMAGED, and raises a TAB notice. A completion after the limit is ignored (R30).
FETCH_ABANDONED (R33): the slot is EMPTY, the tab uncached, every waiter answered TAB-MEMORY-FAULT, and a TAB notice raised. What the memory port
delivers is the command's (assumptions 3 and 4); the limit and the moment of an abandonment are read on the model's clock (assumption 5); the
waiters behind the first wait for WAITER_EXECUTES (assumption 13). -/
def Obligations.FetchFillsOrEmptiesSlot : Prop :=
  (∀ (tab : Nat) (c : StoredRecord) (r : TabRecord), passes tab (some c) = some r ↔
    c.record = r ∧ r.tab = tab ∧ c.check = crc16 (Config.tabBytes r.tab ++ Config.groupBytes r.group ++
      Config.openingTillBytes r.openingTill ++ Config.linesBytes r.lines ++ Config.totalsBytes r.totals ++
      Config.planBytes r.plan ++ Config.tendersBytes r.tenders)) ∧
  (∀ (s : State) (op : MemOp) (rest : List MemOp), s.memRunning = none → s.memQueue = op :: rest →
    exec .memoryOpStart s = .next { s with memRunning := some { op := op, deadline := s.now + 25 }, memQueue := rest }) ∧
  (∀ (s : State) (t : Nat), s.memRunning = none → s.memQueue = [] → s.auditQueued = some t →
    exec .memoryOpStart s = .next
      { s with memRunning := some { op := .auditRead t, deadline := s.now + 25 }, auditQueued := none }) ∧
  (∀ (s : State) (i : SlotId) (deadline tab : Nat) (read : MemRead),
    s.memRunning = some { op := .fetch i, deadline := deadline } → (s.slot i).tab = some tab → s.now ≤ deadline →
    (∀ c, s.readMemory tab read = some c → c.check = recordCheck c.record → c.record.tab = tab →
      let filled := readySlot s (s.slot i) tab c.record false
      ((s.slot i).waits = [] →
        ∃ t, exec (.fetchComplete read) s = .next t ∧ t.memRunning = none ∧ SlotBecomes s t i (filled []) ∧
          { t with memRunning := s.memRunning, slots := s.slots } = s) ∧
      (∀ w rest, (s.slot i).waits = w :: rest →
        (w.port ∉ s.engineWait → (w.request.isSplit = true → s.check = .passed) →
          exec (.fetchComplete read) s = .next (perform i w.port w.request
            { s.setSlot i (filled rest) with memRunning := none, recency := touched s i })) ∧
        (w.port ∈ s.engineWait →
          exec (.fetchComplete read) s = .next { s.setSlot i (filled (w :: rest)) with memRunning := none }))) ∧
    ((∀ c, s.readMemory tab read = some c → c.check ≠ recordCheck c.record ∨ c.record.tab ≠ tab) →
      ∃ t, exec (.fetchComplete read) s = .next t ∧ t.memRunning = none ∧ SlotBecomes s t i CacheSlot.cleared ∧
        EntryBecomes s t tab { s.dir tab with state := .damaged, holder := none, slot := none } ∧
        (∀ q, (s.dir tab).holder = some q → HoldBecomes s t q none) ∧ ((s.dir tab).holder = none → t.holds = s.holds) ∧
        t.closedList = s.closedList.filter (fun u => u ≠ tab) ∧
        t.notices = (s.raise (.tab tab .damaged)).notices ∧ t.dropped = (s.raise (.tab tab .damaged)).dropped ∧
        Answered s t (s.slot i).waits .tabDamaged ∧ ((s.slot i).waits = [] → t.ports = s.ports) ∧
        t.tabMemory = s.tabMemory ∧ t.freeList = s.freeList ∧
        { t with
          memRunning := s.memRunning, slots := s.slots, directory := s.directory, holds := s.holds,
          closedList := s.closedList, notices := s.notices, dropped := s.dropped, ports := s.ports } = s)) ∧
  (∀ (s : State) (i : SlotId) (deadline : Nat) (read : MemRead),
    s.memRunning = some { op := .fetch i, deadline := deadline } → deadline < s.now →
    exec (.fetchComplete read) s = .next s) ∧
  (∀ (s : State) (i : SlotId) (deadline tab : Nat),
    s.memRunning = some { op := .fetch i, deadline := deadline } → (s.slot i).tab = some tab →
    ∃ t, exec .fetchAbandoned s = .next t ∧ t.memRunning = none ∧ t.now = max s.now deadline ∧
      SlotBecomes s t i CacheSlot.cleared ∧ EntryBecomes s t tab { s.dir tab with slot := none } ∧
      t.notices = (s.raise (.tab tab .fetchAbandoned)).notices ∧ t.dropped = (s.raise (.tab tab .fetchAbandoned)).dropped ∧
      Answered s t (s.slot i).waits .tabMemoryFault ∧ ((s.slot i).waits = [] → t.ports = s.ports) ∧
      { t with
        memRunning := s.memRunning, now := s.now, slots := s.slots, directory := s.directory, notices := s.notices,
        dropped := s.dropped, ports := s.ports } = s)

/-- WRITE_BACK_COMPLETE within the limit (R34, R31): tab memory holds the slot's record with the check word computed over it (its bytes are
free: assumption 4), so that a read passes, and no other tab's record has changed; for an incoming tab the old tab is uncached and the slot
fetches the new one with the waiters kept; for NEW the old tab is uncached and the ORDER that waits executes in the cleared slot, or the slot is
EMPTY; for a slot of the FLUSH it is READY and clean, its first waiter executes, and the write counts toward the FLUSH. A completion after the
limit is ignored (R30). WRITE_BACK_ABANDONED (R35): the slot keeps its tab and record, READY and dirty, a TAB notice is raised, an incoming tab
is uncached and its waiters, or the ORDER for NEW, answered TAB-MEMORY-FAULT; for the FLUSH its first waiter executes and the failure counts.
R37: the last write of a FLUSH to end sends its reply, OK with the number written, or TAB-MEMORY-FAULT with that number and the first tab that
failed. What an abandoned write leaves is the command's (assumption 3), the limit and the moment are read on the model's clock (assumption 5),
and the waiters behind the first wait for WAITER_EXECUTES (assumption 13). -/
def Obligations.WriteBackStoresRecord : Prop :=
  (∀ (s : State) (i : SlotId) (deadline tab : Nat) (r : TabRecord),
    s.memRunning = some { op := .writeBack i, deadline := deadline } → (s.slot i).tab = some tab →
    (s.slot i).record = some r →
    (s.now ≤ deadline →
      let v : State := { s.store tab { record := r, check := recordCheck r } with memRunning := none }
      tableFind tab v.tabMemory = some { record := r, check := recordCheck r } ∧
      (r.tab = tab → passes tab (v.readMemory tab .asWritten) = some r) ∧
      (∀ u, u ≠ tab → tableFind u v.tabMemory = tableFind u s.tabMemory) ∧
      (∀ u, (s.slot i).incoming = .tab u → u ≠ tab →
        ∃ t, exec .writeBackComplete s = .next t ∧ t.memRunning = none ∧ t.tabMemory = v.tabMemory ∧
          SlotBecomes s t i { state := .fetching, tab := some u, incoming := .none, record := none, dirty := false,
                              waits := (s.slot i).waits } ∧
          EntryBecomes s t tab { s.dir tab with slot := none } ∧ t.memQueue = s.memQueue ++ [.fetch i] ∧
          { t with
            memRunning := s.memRunning, tabMemory := s.tabMemory, slots := s.slots, directory := s.directory,
            memQueue := s.memQueue } = s) ∧
      ((s.slot i).incoming = .new →
        let cleared := (v.setDir tab { s.dir tab with slot := none }).setSlot i CacheSlot.cleared
        ((s.slot i).waits = [] → exec .writeBackComplete s = .next cleared) ∧
        (∀ w, (s.slot i).waits = [w] →
          exec .writeBackComplete s = .next (perform i w.port w.request { cleared with recency := touched s i }))) ∧
      (∀ f, (s.slot i).incoming = .none → s.flush = some f → i ∈ f.remaining →
        let clean := readySlot s (s.slot i) tab r false
        ((s.slot i).waits = [] →
          exec .writeBackComplete s = .next ((v.setSlot i (clean [])).countFlush i none)) ∧
        (∀ w rest, (s.slot i).waits = w :: rest →
          (w.port ∉ s.engineWait → (w.request.isSplit = true → s.check = .passed) →
            exec .writeBackComplete s = .next ((perform i w.port w.request
              { v.setSlot i (clean rest) with recency := touched s i }).countFlush i none)) ∧
          (w.port ∈ s.engineWait →
            exec .writeBackComplete s = .next ((v.setSlot i (clean (w :: rest))).countFlush i none))))) ∧
    (deadline < s.now → exec .writeBackComplete s = .next s)) ∧
  (∀ (s : State) (i : SlotId) (deadline tab : Nat) (r : TabRecord) (left : Option StoredRecord),
    s.memRunning = some { op := .writeBack i, deadline := deadline } → (s.slot i).tab = some tab →
    (s.slot i).record = some r → (s.slot i).dirty = true →
    let v : State := { leftBehind s tab left with memRunning := none, now := max s.now deadline }
    let kept := readySlot s (s.slot i) tab r true
    (∀ u, (s.slot i).incoming = .tab u → u ≠ tab →
      ∃ t, exec (.writeBackAbandoned left) s = .next t ∧ t.memRunning = none ∧ t.now = max s.now deadline ∧
        t.tabMemory = v.tabMemory ∧ (left = none → t.tabMemory = s.tabMemory) ∧
        SlotBecomes s t i (kept []) ∧ EntryBecomes s t u { s.dir u with slot := none } ∧
        t.notices = (s.raise (.tab tab .writeAbandoned)).notices ∧
        t.dropped = (s.raise (.tab tab .writeAbandoned)).dropped ∧
        Answered s t (s.slot i).waits .tabMemoryFault ∧
        { t with
          memRunning := s.memRunning, now := s.now, tabMemory := s.tabMemory, slots := s.slots, directory := s.directory,
          notices := s.notices, dropped := s.dropped, ports := s.ports } = s) ∧
    ((s.slot i).incoming = .new →
      ∃ t, exec (.writeBackAbandoned left) s = .next t ∧ t.memRunning = none ∧ t.now = max s.now deadline ∧
        t.tabMemory = v.tabMemory ∧ SlotBecomes s t i (kept []) ∧
        t.notices = (s.raise (.tab tab .writeAbandoned)).notices ∧
        t.dropped = (s.raise (.tab tab .writeAbandoned)).dropped ∧
        Answered s t (s.slot i).waits .tabMemoryFault ∧
        { t with
          memRunning := s.memRunning, now := s.now, tabMemory := s.tabMemory, slots := s.slots, notices := s.notices,
          dropped := s.dropped, ports := s.ports } = s) ∧
    (∀ f, (s.slot i).incoming = .none → s.flush = some f → i ∈ f.remaining →
      let noted := v.raise (.tab tab .writeAbandoned)
      ((s.slot i).waits = [] →
        exec (.writeBackAbandoned left) s = .next ((noted.setSlot i (kept [])).countFlush i (some tab))) ∧
      (∀ w rest, (s.slot i).waits = w :: rest →
        (w.port ∉ s.engineWait → (w.request.isSplit = true → s.check = .passed) →
          exec (.writeBackAbandoned left) s = .next ((perform i w.port w.request
            { noted.setSlot i (kept rest) with recency := touched s i }).countFlush i (some tab))) ∧
        (w.port ∈ s.engineWait →
          exec (.writeBackAbandoned left) s = .next
            ((noted.setSlot i (kept (w :: rest))).countFlush i (some tab)))))) ∧
  (∀ (s : State) (f : Flush) (i : SlotId) (fault : Option Nat), s.flush = some f → i ∈ f.remaining →
    let written := if fault = none then f.written + 1 else f.written
    let first := f.firstFault.or fault
    (f.remaining.erase i ≠ [] →
      s.countFlush i fault =
        { s with flush := some { remaining := f.remaining.erase i, written := written, firstFault := first } }) ∧
    (∀ k, f.remaining.erase i = [] → (s.port 0).request = some k →
      (first = none → s.countFlush i fault = withReply { s with flush := none } 0 k.kind k.tag .ok (num1 written)) ∧
      (∀ u, first = some u → s.countFlush i fault =
        withReply { s with flush := none } 0 k.kind k.tag .tabMemoryFault (Detail.bytes { tab := u, figure := written }))))

/-- The audit read of tab T ends while its audit runs (R40): after T has been FREE, or when the read is abandoned, T is counted skipped and its
entry stays; a record that passes is counted verified; one that fails makes an uncached OPEN, TENDERING or CLOSED tab DAMAGED, its holder losing the
hold, with a TAB notice, and is counted damaged and first damaged; one that fails for any other tab is counted skipped. The walk then moves on,
here to its end with an AUDIT DONE notice (R41). A completion after the 25 ms is ignored (R30). What the memory port delivers is the command's
(assumptions 3 and 4), and the limit and an abandonment's moment are the model's (assumption 5). -/
def Obligations.AuditReadIsJudged : Prop :=
  ∀ (s : State) (a : Audit) (tab deadline : Nat), s.memRunning = some { op := .auditRead tab, deadline := deadline } →
    s.audit = some a → (∀ e ∈ s.directory, e.1 ≤ tab) →
    (∀ read, s.now ≤ deadline → a.freed = false → (passes tab (s.readMemory tab read)).isSome = true →
      exec (.auditReadComplete read) s = .next
        ({ s with memRunning := none, audit := none }.raise
          (.auditDone (a.verified + 1) a.damaged a.skipped a.firstDamaged))) ∧
    (∀ read, s.now ≤ deadline →
        (a.freed = true ∨ ((passes tab (s.readMemory tab read)).isSome = false ∧ mayDamage (s.dir tab) = false)) →
      exec (.auditReadComplete read) s = .next
        ({ s with memRunning := none, audit := none }.raise
          (.auditDone a.verified a.damaged (a.skipped + 1) a.firstDamaged))) ∧
    (∀ read, s.now ≤ deadline → a.freed = false → (passes tab (s.readMemory tab read)).isSome = false →
        mayDamage (s.dir tab) = true →
      ∃ t, exec (.auditReadComplete read) s = .next t ∧ t.memRunning = none ∧ t.audit = none ∧
        EntryBecomes s t tab { s.dir tab with state := .damaged, holder := none, slot := none } ∧
        (∀ q, (s.dir tab).holder = some q → HoldBecomes s t q none) ∧ ((s.dir tab).holder = none → t.holds = s.holds) ∧
        t.closedList = s.closedList.filter (fun u => u ≠ tab) ∧
        t.notices = ((s.raise (.tab tab .damaged)).raise
          (.auditDone a.verified (a.damaged + 1) a.skipped (a.firstDamaged.or (some tab)))).notices ∧
        t.slots = s.slots ∧ t.tabMemory = s.tabMemory ∧ t.ports = s.ports ∧ t.freeList = s.freeList ∧
        { t with
          memRunning := s.memRunning, audit := s.audit, directory := s.directory, holds := s.holds,
          closedList := s.closedList, notices := s.notices, dropped := s.dropped } = s) ∧
    (∀ read, deadline < s.now → exec (.auditReadComplete read) s = .next s) ∧
    exec .auditReadAbandoned s = .next
      ({ s with memRunning := none, audit := none, now := max s.now deadline }.raise
        (.auditDone a.verified a.damaged (a.skipped + 1) a.firstDamaged)) ∧
    (mayDamage (s.dir tab) = true ↔
      ((s.dir tab).state = .opened ∨ (s.dir tab).state = .tendering ∨ (s.dir tab).state = .closed) ∧ (s.dir tab).slot = none)

/-- A request on a tab at the cache (R21 to R24): at a slot that its tab waits for or waits at it joins the wait list, or is answered BUSY when 4
wait; for a tab that is being written out it is answered TABS-BUSY; for a tab in no slot a victim is claimed, the lowest EMPTY slot or else the
READY one with nobody waiting least recent in the order: it fetches the tab at once when EMPTY or clean, its old tab uncached, and is written back
first when dirty; with no victim the answer is TABS-BUSY. An ORDER for tab 0 is answered TABS-FULL with no free tab and TABS-BUSY with no victim,
and waits for a dirty victim's write-back. WAITER_EXECUTES (R25, R26): at a READY slot the request at the head of the wait list leaves it and
executes, the slot becoming most recent; here a READ TAB from the uplink, which replies and leaves the record, the dirty flag and the requests
behind it as they were. -/
def Obligations.WaiterAtHeadExecutes : Prop :=
  (∀ (s : State) (p : Port) (k : Kind) (tag : Byte) (body : List Byte) (c : Instr) (tab : Nat) (request : TabRequest),
    AsksCache s p k tag body c tab request →
    let w : Waiter := { port := p, request := request }
    (∀ i, JoinsAt s tab i →
      ((s.slot i).waits.length < 4 →
        exec c s = .next ((afterTaking s p k tag).setSlot i { s.slot i with waits := (s.slot i).waits ++ [w] })) ∧
      (4 ≤ (s.slot i).waits.length →
        ∃ t, exec c s = .next t ∧ OnlyReplied s t p k tag .busy (requestDetail request).bytes)) ∧
    (∀ i, (s.dir tab).slot = some i → (s.slot i).tab = some tab → (s.slot i).state = .writing →
        (s.slot i).incoming ≠ .none →
      ∃ t, exec c s = .next t ∧ OnlyReplied s t p k tag .tabsBusy (requestDetail request).bytes) ∧
    ((s.dir tab).slot = none → s.victim = none →
      ∃ t, exec c s = .next t ∧ OnlyReplied s t p k tag .tabsBusy (requestDetail request).bytes) ∧
    (∀ i, (s.dir tab).slot = none → s.victim = some i → s.victimDirty i = false →
      ∃ t, exec c s = .next t ∧
        SlotBecomes s t i
          { state := .fetching, tab := some tab, incoming := .none, record := none, dirty := false, waits := [w] } ∧
        t.dir tab = { s.dir tab with slot := some i } ∧
        (∀ u, u ≠ tab → t.dir u = if (s.slot i).tab = some u then { s.dir u with slot := none } else s.dir u) ∧
        t.memQueue = s.memQueue ++ [.fetch i] ∧ t.port p = waitingPort (s.port p) k tag ∧ OtherPortsKept s t p ∧
        { t with ports := s.ports, slots := s.slots, directory := s.directory, memQueue := s.memQueue } = s) ∧
    (∀ i, (s.dir tab).slot = none → s.victim = some i → s.victimDirty i = true →
      ∃ t, exec c s = .next t ∧
        SlotBecomes s t i { s.slot i with state := .writing, incoming := .tab tab, waits := [w] } ∧
        EntryBecomes s t tab { s.dir tab with slot := some i } ∧
        t.memQueue = s.memQueue ++ [.writeBack i] ∧ t.port p = waitingPort (s.port p) k tag ∧ OtherPortsKept s t p ∧
        { t with ports := s.ports, slots := s.slots, directory := s.directory, memQueue := s.memQueue } = s)) ∧
  (∀ (s : State) (p : Port) (tag : Byte) (body : List Byte) (rush : Bool) (lines : List OrderLine),
    body.length ≤ maxBody → Admitted s p .order → readOrder body = some (0, rush, lines) →
    (s.freeList = [] → ∃ t, exec (.order p tag body) s = .next t ∧ OnlyReplied s t p .order tag .tabsFull (Detail.bytes {})) ∧
    (s.freeList ≠ [] → s.victim = none →
      ∃ t, exec (.order p tag body) s = .next t ∧ OnlyReplied s t p .order tag .tabsBusy (Detail.bytes {})) ∧
    (∀ i, s.freeList ≠ [] → s.victim = some i → s.victimDirty i = true →
      ∃ t, exec (.order p tag body) s = .next t ∧
        SlotBecomes s t i { s.slot i with
          state := .writing, incoming := .new, waits := [{ port := p, request := .order 0 rush lines }] } ∧
        t.memQueue = s.memQueue ++ [.writeBack i] ∧ t.port p = waitingPort (s.port p) .order tag ∧ OtherPortsKept s t p ∧
        { t with ports := s.ports, slots := s.slots, memQueue := s.memQueue } = s)) ∧
  (∀ s : State,
    (∀ i, (s.slot i).state = .empty → (∀ j, j < i → (s.slot j).state ≠ .empty) → s.victim = some i) ∧
    ((∀ i, (s.slot i).state ≠ .empty) →
      (∀ front i back, s.recency = front ++ i :: back → (s.slot i).state = .ready → (s.slot i).waits = [] →
        (∀ j ∈ front, (s.slot j).state ≠ .ready ∨ (s.slot j).waits ≠ []) → s.victim = some i) ∧
      ((∀ j ∈ s.recency, (s.slot j).state ≠ .ready ∨ (s.slot j).waits ≠ []) → s.victim = none)) ∧
    ∀ i, s.victimDirty i = true ↔ (s.slot i).state = .ready ∧ (s.slot i).dirty = true) ∧
  (∀ (s : State) (i : SlotId) (w : Waiter) (rest : List Waiter),
    (s.slot i).state = .ready → (s.slot i).waits = w :: rest → w.port ∉ s.engineWait → w.request.isSplit = false →
    exec (.waiterExecutes i) s = .next
      (perform i w.port w.request
        { s.setSlot i { s.slot i with waits := rest } with recency := touched s i })) ∧
  (∀ (s : State) (i : SlotId) (p : Port) (tab page : Nat) (rest : List Waiter) (r : TabRecord) (k : SlotRequest),
    (s.slot i).state = .ready → (s.slot i).waits = { port := p, request := .readTab tab page } :: rest →
    p ∉ s.engineWait → s.role p = .uplink → (s.slot i).record = some r → (s.port p).request = some k →
    ∃ t, exec (.waiterExecutes i) s = .next t ∧ t.recency = touched s i ∧
      SlotBecomes s t i { s.slot i with waits := rest } ∧
      t.port p = (s.port p).put (replyFrame k.kind k.tag .ok (readTabBytes (s.dir tab) r tab page)) ∧
      (∀ q, q ≠ p → t.port q = s.port q) ∧
      { t with ports := s.ports, recency := s.recency, slots := s.slots } = s)
end

