-- ==== Sys2Proof/Laws/State.lean ====
section
/-! SUPPORT. What each named update of the state leaves alone: one lemma for each field. -/

namespace Sys2Proof.Machine

/-! ### setPort -/

@[simp] theorem State.setPort_pending (s : State) (p : Port) (x : LanePort) : (s.setPort p x).pending = s.pending := rfl
@[simp] theorem State.setPort_now (s : State) (p : Port) (x : LanePort) : (s.setPort p x).now = s.now := rfl
@[simp] theorem State.setPort_phase (s : State) (p : Port) (x : LanePort) : (s.setPort p x).phase = s.phase := rfl
@[simp] theorem State.setPort_walkAt (s : State) (p : Port) (x : LanePort) : (s.setPort p x).walkAt = s.walkAt := rfl
@[simp] theorem State.setPort_startUp (s : State) (p : Port) (x : LanePort) : (s.setPort p x).startUp = s.startUp := rfl
@[simp] theorem State.setPort_notices (s : State) (p : Port) (x : LanePort) : (s.setPort p x).notices = s.notices := rfl
@[simp] theorem State.setPort_mask (s : State) (p : Port) (x : LanePort) : (s.setPort p x).mask = s.mask := rfl
@[simp] theorem State.setPort_dropped (s : State) (p : Port) (x : LanePort) : (s.setPort p x).dropped = s.dropped := rfl
@[simp] theorem State.setPort_save (s : State) (p : Port) (x : LanePort) : (s.setPort p x).save = s.save := rfl
@[simp] theorem State.setPort_flash (s : State) (p : Port) (x : LanePort) : (s.setPort p x).flash = s.flash := rfl
@[simp] theorem State.setPort_timers (s : State) (p : Port) (x : LanePort) : (s.setPort p x).timers = s.timers := rfl
@[simp] theorem State.setPort_imageTimer (s : State) (p : Port) (x : LanePort) : (s.setPort p x).imageTimer = s.imageTimer := rfl
@[simp] theorem State.setPort_portTable (s : State) (p : Port) (x : LanePort) : (s.setPort p x).portTable = s.portTable := rfl
@[simp] theorem State.setPort_serviceRates (s : State) (p : Port) (x : LanePort) : (s.setPort p x).serviceRates = s.serviceRates := rfl
@[simp] theorem State.setPort_taxRates (s : State) (p : Port) (x : LanePort) : (s.setPort p x).taxRates = s.taxRates := rfl
@[simp] theorem State.setPort_items (s : State) (p : Port) (x : LanePort) : (s.setPort p x).items = s.items := rfl
@[simp] theorem State.setPort_availList (s : State) (p : Port) (x : LanePort) : (s.setPort p x).availList = s.availList := rfl
@[simp] theorem State.setPort_directory (s : State) (p : Port) (x : LanePort) : (s.setPort p x).directory = s.directory := rfl
@[simp] theorem State.setPort_freeList (s : State) (p : Port) (x : LanePort) : (s.setPort p x).freeList = s.freeList := rfl
@[simp] theorem State.setPort_closedList (s : State) (p : Port) (x : LanePort) : (s.setPort p x).closedList = s.closedList := rfl
@[simp] theorem State.setPort_slots (s : State) (p : Port) (x : LanePort) : (s.setPort p x).slots = s.slots := rfl
@[simp] theorem State.setPort_recency (s : State) (p : Port) (x : LanePort) : (s.setPort p x).recency = s.recency := rfl
@[simp] theorem State.setPort_tabMemory (s : State) (p : Port) (x : LanePort) : (s.setPort p x).tabMemory = s.tabMemory := rfl
@[simp] theorem State.setPort_memQueue (s : State) (p : Port) (x : LanePort) : (s.setPort p x).memQueue = s.memQueue := rfl
@[simp] theorem State.setPort_auditQueued (s : State) (p : Port) (x : LanePort) : (s.setPort p x).auditQueued = s.auditQueued := rfl
@[simp] theorem State.setPort_memRunning (s : State) (p : Port) (x : LanePort) : (s.setPort p x).memRunning = s.memRunning := rfl
@[simp] theorem State.setPort_flush (s : State) (p : Port) (x : LanePort) : (s.setPort p x).flush = s.flush := rfl
@[simp] theorem State.setPort_audit (s : State) (p : Port) (x : LanePort) : (s.setPort p x).audit = s.audit := rfl
@[simp] theorem State.setPort_holds (s : State) (p : Port) (x : LanePort) : (s.setPort p x).holds = s.holds := rfl
@[simp] theorem State.setPort_stations (s : State) (p : Port) (x : LanePort) : (s.setPort p x).stations = s.stations := rfl
@[simp] theorem State.setPort_overflow (s : State) (p : Port) (x : LanePort) : (s.setPort p x).overflow = s.overflow := rfl
@[simp] theorem State.setPort_ticketCounter (s : State) (p : Port) (x : LanePort) : (s.setPort p x).ticketCounter = s.ticketCounter := rfl
@[simp] theorem State.setPort_check (s : State) (p : Port) (x : LanePort) : (s.setPort p x).check = s.check := rfl
@[simp] theorem State.setPort_engineWait (s : State) (p : Port) (x : LanePort) : (s.setPort p x).engineWait = s.engineWait := rfl

/-! ### setRole -/

@[simp] theorem State.setRole_pending (s : State) (p : Port) (r : PortRole) : (s.setRole p r).pending = s.pending := rfl
@[simp] theorem State.setRole_now (s : State) (p : Port) (r : PortRole) : (s.setRole p r).now = s.now := rfl
@[simp] theorem State.setRole_phase (s : State) (p : Port) (r : PortRole) : (s.setRole p r).phase = s.phase := rfl
@[simp] theorem State.setRole_walkAt (s : State) (p : Port) (r : PortRole) : (s.setRole p r).walkAt = s.walkAt := rfl
@[simp] theorem State.setRole_startUp (s : State) (p : Port) (r : PortRole) : (s.setRole p r).startUp = s.startUp := rfl
@[simp] theorem State.setRole_notices (s : State) (p : Port) (r : PortRole) : (s.setRole p r).notices = s.notices := rfl
@[simp] theorem State.setRole_mask (s : State) (p : Port) (r : PortRole) : (s.setRole p r).mask = s.mask := rfl
@[simp] theorem State.setRole_dropped (s : State) (p : Port) (r : PortRole) : (s.setRole p r).dropped = s.dropped := rfl
@[simp] theorem State.setRole_save (s : State) (p : Port) (r : PortRole) : (s.setRole p r).save = s.save := rfl
@[simp] theorem State.setRole_flash (s : State) (p : Port) (r : PortRole) : (s.setRole p r).flash = s.flash := rfl
@[simp] theorem State.setRole_timers (s : State) (p : Port) (r : PortRole) : (s.setRole p r).timers = s.timers := rfl
@[simp] theorem State.setRole_imageTimer (s : State) (p : Port) (r : PortRole) : (s.setRole p r).imageTimer = s.imageTimer := rfl
@[simp] theorem State.setRole_ports (s : State) (p : Port) (r : PortRole) : (s.setRole p r).ports = s.ports := rfl
@[simp] theorem State.setRole_serviceRates (s : State) (p : Port) (r : PortRole) : (s.setRole p r).serviceRates = s.serviceRates := rfl
@[simp] theorem State.setRole_taxRates (s : State) (p : Port) (r : PortRole) : (s.setRole p r).taxRates = s.taxRates := rfl
@[simp] theorem State.setRole_items (s : State) (p : Port) (r : PortRole) : (s.setRole p r).items = s.items := rfl
@[simp] theorem State.setRole_availList (s : State) (p : Port) (r : PortRole) : (s.setRole p r).availList = s.availList := rfl
@[simp] theorem State.setRole_directory (s : State) (p : Port) (r : PortRole) : (s.setRole p r).directory = s.directory := rfl
@[simp] theorem State.setRole_freeList (s : State) (p : Port) (r : PortRole) : (s.setRole p r).freeList = s.freeList := rfl
@[simp] theorem State.setRole_closedList (s : State) (p : Port) (r : PortRole) : (s.setRole p r).closedList = s.closedList := rfl
@[simp] theorem State.setRole_slots (s : State) (p : Port) (r : PortRole) : (s.setRole p r).slots = s.slots := rfl
@[simp] theorem State.setRole_recency (s : State) (p : Port) (r : PortRole) : (s.setRole p r).recency = s.recency := rfl
@[simp] theorem State.setRole_tabMemory (s : State) (p : Port) (r : PortRole) : (s.setRole p r).tabMemory = s.tabMemory := rfl
@[simp] theorem State.setRole_memQueue (s : State) (p : Port) (r : PortRole) : (s.setRole p r).memQueue = s.memQueue := rfl
@[simp] theorem State.setRole_auditQueued (s : State) (p : Port) (r : PortRole) : (s.setRole p r).auditQueued = s.auditQueued := rfl
@[simp] theorem State.setRole_memRunning (s : State) (p : Port) (r : PortRole) : (s.setRole p r).memRunning = s.memRunning := rfl
@[simp] theorem State.setRole_flush (s : State) (p : Port) (r : PortRole) : (s.setRole p r).flush = s.flush := rfl
@[simp] theorem State.setRole_audit (s : State) (p : Port) (r : PortRole) : (s.setRole p r).audit = s.audit := rfl
@[simp] theorem State.setRole_holds (s : State) (p : Port) (r : PortRole) : (s.setRole p r).holds = s.holds := rfl
@[simp] theorem State.setRole_stations (s : State) (p : Port) (r : PortRole) : (s.setRole p r).stations = s.stations := rfl
@[simp] theorem State.setRole_overflow (s : State) (p : Port) (r : PortRole) : (s.setRole p r).overflow = s.overflow := rfl
@[simp] theorem State.setRole_ticketCounter (s : State) (p : Port) (r : PortRole) : (s.setRole p r).ticketCounter = s.ticketCounter := rfl
@[simp] theorem State.setRole_check (s : State) (p : Port) (r : PortRole) : (s.setRole p r).check = s.check := rfl
@[simp] theorem State.setRole_engineWait (s : State) (p : Port) (r : PortRole) : (s.setRole p r).engineWait = s.engineWait := rfl

/-! ### setDir -/

@[simp] theorem State.setDir_pending (s : State) (t : Nat) (e : DirEntry) : (s.setDir t e).pending = s.pending := rfl
@[simp] theorem State.setDir_now (s : State) (t : Nat) (e : DirEntry) : (s.setDir t e).now = s.now := rfl
@[simp] theorem State.setDir_phase (s : State) (t : Nat) (e : DirEntry) : (s.setDir t e).phase = s.phase := rfl
@[simp] theorem State.setDir_walkAt (s : State) (t : Nat) (e : DirEntry) : (s.setDir t e).walkAt = s.walkAt := rfl
@[simp] theorem State.setDir_startUp (s : State) (t : Nat) (e : DirEntry) : (s.setDir t e).startUp = s.startUp := rfl
@[simp] theorem State.setDir_notices (s : State) (t : Nat) (e : DirEntry) : (s.setDir t e).notices = s.notices := rfl
@[simp] theorem State.setDir_mask (s : State) (t : Nat) (e : DirEntry) : (s.setDir t e).mask = s.mask := rfl
@[simp] theorem State.setDir_dropped (s : State) (t : Nat) (e : DirEntry) : (s.setDir t e).dropped = s.dropped := rfl
@[simp] theorem State.setDir_save (s : State) (t : Nat) (e : DirEntry) : (s.setDir t e).save = s.save := rfl
@[simp] theorem State.setDir_flash (s : State) (t : Nat) (e : DirEntry) : (s.setDir t e).flash = s.flash := rfl
@[simp] theorem State.setDir_timers (s : State) (t : Nat) (e : DirEntry) : (s.setDir t e).timers = s.timers := rfl
@[simp] theorem State.setDir_imageTimer (s : State) (t : Nat) (e : DirEntry) : (s.setDir t e).imageTimer = s.imageTimer := rfl
@[simp] theorem State.setDir_portTable (s : State) (t : Nat) (e : DirEntry) : (s.setDir t e).portTable = s.portTable := rfl
@[simp] theorem State.setDir_ports (s : State) (t : Nat) (e : DirEntry) : (s.setDir t e).ports = s.ports := rfl
@[simp] theorem State.setDir_serviceRates (s : State) (t : Nat) (e : DirEntry) : (s.setDir t e).serviceRates = s.serviceRates := rfl
@[simp] theorem State.setDir_taxRates (s : State) (t : Nat) (e : DirEntry) : (s.setDir t e).taxRates = s.taxRates := rfl
@[simp] theorem State.setDir_items (s : State) (t : Nat) (e : DirEntry) : (s.setDir t e).items = s.items := rfl
@[simp] theorem State.setDir_availList (s : State) (t : Nat) (e : DirEntry) : (s.setDir t e).availList = s.availList := rfl
@[simp] theorem State.setDir_freeList (s : State) (t : Nat) (e : DirEntry) : (s.setDir t e).freeList = s.freeList := rfl
@[simp] theorem State.setDir_closedList (s : State) (t : Nat) (e : DirEntry) : (s.setDir t e).closedList = s.closedList := rfl
@[simp] theorem State.setDir_slots (s : State) (t : Nat) (e : DirEntry) : (s.setDir t e).slots = s.slots := rfl
@[simp] theorem State.setDir_recency (s : State) (t : Nat) (e : DirEntry) : (s.setDir t e).recency = s.recency := rfl
@[simp] theorem State.setDir_tabMemory (s : State) (t : Nat) (e : DirEntry) : (s.setDir t e).tabMemory = s.tabMemory := rfl
@[simp] theorem State.setDir_memQueue (s : State) (t : Nat) (e : DirEntry) : (s.setDir t e).memQueue = s.memQueue := rfl
@[simp] theorem State.setDir_auditQueued (s : State) (t : Nat) (e : DirEntry) : (s.setDir t e).auditQueued = s.auditQueued := rfl
@[simp] theorem State.setDir_memRunning (s : State) (t : Nat) (e : DirEntry) : (s.setDir t e).memRunning = s.memRunning := rfl
@[simp] theorem State.setDir_flush (s : State) (t : Nat) (e : DirEntry) : (s.setDir t e).flush = s.flush := rfl
@[simp] theorem State.setDir_audit (s : State) (t : Nat) (e : DirEntry) : (s.setDir t e).audit = s.audit := rfl
@[simp] theorem State.setDir_holds (s : State) (t : Nat) (e : DirEntry) : (s.setDir t e).holds = s.holds := rfl
@[simp] theorem State.setDir_stations (s : State) (t : Nat) (e : DirEntry) : (s.setDir t e).stations = s.stations := rfl
@[simp] theorem State.setDir_overflow (s : State) (t : Nat) (e : DirEntry) : (s.setDir t e).overflow = s.overflow := rfl
@[simp] theorem State.setDir_ticketCounter (s : State) (t : Nat) (e : DirEntry) : (s.setDir t e).ticketCounter = s.ticketCounter := rfl
@[simp] theorem State.setDir_check (s : State) (t : Nat) (e : DirEntry) : (s.setDir t e).check = s.check := rfl
@[simp] theorem State.setDir_engineWait (s : State) (t : Nat) (e : DirEntry) : (s.setDir t e).engineWait = s.engineWait := rfl

/-! ### setHold -/

@[simp] theorem State.setHold_pending (s : State) (p : Port) (h : Option Hold) : (s.setHold p h).pending = s.pending := rfl
@[simp] theorem State.setHold_now (s : State) (p : Port) (h : Option Hold) : (s.setHold p h).now = s.now := rfl
@[simp] theorem State.setHold_phase (s : State) (p : Port) (h : Option Hold) : (s.setHold p h).phase = s.phase := rfl
@[simp] theorem State.setHold_walkAt (s : State) (p : Port) (h : Option Hold) : (s.setHold p h).walkAt = s.walkAt := rfl
@[simp] theorem State.setHold_startUp (s : State) (p : Port) (h : Option Hold) : (s.setHold p h).startUp = s.startUp := rfl
@[simp] theorem State.setHold_notices (s : State) (p : Port) (h : Option Hold) : (s.setHold p h).notices = s.notices := rfl
@[simp] theorem State.setHold_mask (s : State) (p : Port) (h : Option Hold) : (s.setHold p h).mask = s.mask := rfl
@[simp] theorem State.setHold_dropped (s : State) (p : Port) (h : Option Hold) : (s.setHold p h).dropped = s.dropped := rfl
@[simp] theorem State.setHold_save (s : State) (p : Port) (h : Option Hold) : (s.setHold p h).save = s.save := rfl
@[simp] theorem State.setHold_flash (s : State) (p : Port) (h : Option Hold) : (s.setHold p h).flash = s.flash := rfl
@[simp] theorem State.setHold_timers (s : State) (p : Port) (h : Option Hold) : (s.setHold p h).timers = s.timers := rfl
@[simp] theorem State.setHold_imageTimer (s : State) (p : Port) (h : Option Hold) : (s.setHold p h).imageTimer = s.imageTimer := rfl
@[simp] theorem State.setHold_portTable (s : State) (p : Port) (h : Option Hold) : (s.setHold p h).portTable = s.portTable := rfl
@[simp] theorem State.setHold_ports (s : State) (p : Port) (h : Option Hold) : (s.setHold p h).ports = s.ports := rfl
@[simp] theorem State.setHold_serviceRates (s : State) (p : Port) (h : Option Hold) : (s.setHold p h).serviceRates = s.serviceRates := rfl
@[simp] theorem State.setHold_taxRates (s : State) (p : Port) (h : Option Hold) : (s.setHold p h).taxRates = s.taxRates := rfl
@[simp] theorem State.setHold_items (s : State) (p : Port) (h : Option Hold) : (s.setHold p h).items = s.items := rfl
@[simp] theorem State.setHold_availList (s : State) (p : Port) (h : Option Hold) : (s.setHold p h).availList = s.availList := rfl
@[simp] theorem State.setHold_directory (s : State) (p : Port) (h : Option Hold) : (s.setHold p h).directory = s.directory := rfl
@[simp] theorem State.setHold_freeList (s : State) (p : Port) (h : Option Hold) : (s.setHold p h).freeList = s.freeList := rfl
@[simp] theorem State.setHold_closedList (s : State) (p : Port) (h : Option Hold) : (s.setHold p h).closedList = s.closedList := rfl
@[simp] theorem State.setHold_slots (s : State) (p : Port) (h : Option Hold) : (s.setHold p h).slots = s.slots := rfl
@[simp] theorem State.setHold_recency (s : State) (p : Port) (h : Option Hold) : (s.setHold p h).recency = s.recency := rfl
@[simp] theorem State.setHold_tabMemory (s : State) (p : Port) (h : Option Hold) : (s.setHold p h).tabMemory = s.tabMemory := rfl
@[simp] theorem State.setHold_memQueue (s : State) (p : Port) (h : Option Hold) : (s.setHold p h).memQueue = s.memQueue := rfl
@[simp] theorem State.setHold_auditQueued (s : State) (p : Port) (h : Option Hold) : (s.setHold p h).auditQueued = s.auditQueued := rfl
@[simp] theorem State.setHold_memRunning (s : State) (p : Port) (h : Option Hold) : (s.setHold p h).memRunning = s.memRunning := rfl
@[simp] theorem State.setHold_flush (s : State) (p : Port) (h : Option Hold) : (s.setHold p h).flush = s.flush := rfl
@[simp] theorem State.setHold_audit (s : State) (p : Port) (h : Option Hold) : (s.setHold p h).audit = s.audit := rfl
@[simp] theorem State.setHold_stations (s : State) (p : Port) (h : Option Hold) : (s.setHold p h).stations = s.stations := rfl
@[simp] theorem State.setHold_overflow (s : State) (p : Port) (h : Option Hold) : (s.setHold p h).overflow = s.overflow := rfl
@[simp] theorem State.setHold_ticketCounter (s : State) (p : Port) (h : Option Hold) : (s.setHold p h).ticketCounter = s.ticketCounter := rfl
@[simp] theorem State.setHold_check (s : State) (p : Port) (h : Option Hold) : (s.setHold p h).check = s.check := rfl
@[simp] theorem State.setHold_engineWait (s : State) (p : Port) (h : Option Hold) : (s.setHold p h).engineWait = s.engineWait := rfl

/-! ### setSlot -/

@[simp] theorem State.setSlot_pending (s : State) (i : SlotId) (x : CacheSlot) : (s.setSlot i x).pending = s.pending := rfl
@[simp] theorem State.setSlot_now (s : State) (i : SlotId) (x : CacheSlot) : (s.setSlot i x).now = s.now := rfl
@[simp] theorem State.setSlot_phase (s : State) (i : SlotId) (x : CacheSlot) : (s.setSlot i x).phase = s.phase := rfl
@[simp] theorem State.setSlot_walkAt (s : State) (i : SlotId) (x : CacheSlot) : (s.setSlot i x).walkAt = s.walkAt := rfl
@[simp] theorem State.setSlot_startUp (s : State) (i : SlotId) (x : CacheSlot) : (s.setSlot i x).startUp = s.startUp := rfl
@[simp] theorem State.setSlot_notices (s : State) (i : SlotId) (x : CacheSlot) : (s.setSlot i x).notices = s.notices := rfl
@[simp] theorem State.setSlot_mask (s : State) (i : SlotId) (x : CacheSlot) : (s.setSlot i x).mask = s.mask := rfl
@[simp] theorem State.setSlot_dropped (s : State) (i : SlotId) (x : CacheSlot) : (s.setSlot i x).dropped = s.dropped := rfl
@[simp] theorem State.setSlot_save (s : State) (i : SlotId) (x : CacheSlot) : (s.setSlot i x).save = s.save := rfl
@[simp] theorem State.setSlot_flash (s : State) (i : SlotId) (x : CacheSlot) : (s.setSlot i x).flash = s.flash := rfl
@[simp] theorem State.setSlot_timers (s : State) (i : SlotId) (x : CacheSlot) : (s.setSlot i x).timers = s.timers := rfl
@[simp] theorem State.setSlot_imageTimer (s : State) (i : SlotId) (x : CacheSlot) : (s.setSlot i x).imageTimer = s.imageTimer := rfl
@[simp] theorem State.setSlot_portTable (s : State) (i : SlotId) (x : CacheSlot) : (s.setSlot i x).portTable = s.portTable := rfl
@[simp] theorem State.setSlot_ports (s : State) (i : SlotId) (x : CacheSlot) : (s.setSlot i x).ports = s.ports := rfl
@[simp] theorem State.setSlot_serviceRates (s : State) (i : SlotId) (x : CacheSlot) : (s.setSlot i x).serviceRates = s.serviceRates := rfl
@[simp] theorem State.setSlot_taxRates (s : State) (i : SlotId) (x : CacheSlot) : (s.setSlot i x).taxRates = s.taxRates := rfl
@[simp] theorem State.setSlot_items (s : State) (i : SlotId) (x : CacheSlot) : (s.setSlot i x).items = s.items := rfl
@[simp] theorem State.setSlot_availList (s : State) (i : SlotId) (x : CacheSlot) : (s.setSlot i x).availList = s.availList := rfl
@[simp] theorem State.setSlot_directory (s : State) (i : SlotId) (x : CacheSlot) : (s.setSlot i x).directory = s.directory := rfl
@[simp] theorem State.setSlot_freeList (s : State) (i : SlotId) (x : CacheSlot) : (s.setSlot i x).freeList = s.freeList := rfl
@[simp] theorem State.setSlot_closedList (s : State) (i : SlotId) (x : CacheSlot) : (s.setSlot i x).closedList = s.closedList := rfl
@[simp] theorem State.setSlot_recency (s : State) (i : SlotId) (x : CacheSlot) : (s.setSlot i x).recency = s.recency := rfl
@[simp] theorem State.setSlot_tabMemory (s : State) (i : SlotId) (x : CacheSlot) : (s.setSlot i x).tabMemory = s.tabMemory := rfl
@[simp] theorem State.setSlot_memQueue (s : State) (i : SlotId) (x : CacheSlot) : (s.setSlot i x).memQueue = s.memQueue := rfl
@[simp] theorem State.setSlot_auditQueued (s : State) (i : SlotId) (x : CacheSlot) : (s.setSlot i x).auditQueued = s.auditQueued := rfl
@[simp] theorem State.setSlot_memRunning (s : State) (i : SlotId) (x : CacheSlot) : (s.setSlot i x).memRunning = s.memRunning := rfl
@[simp] theorem State.setSlot_flush (s : State) (i : SlotId) (x : CacheSlot) : (s.setSlot i x).flush = s.flush := rfl
@[simp] theorem State.setSlot_audit (s : State) (i : SlotId) (x : CacheSlot) : (s.setSlot i x).audit = s.audit := rfl
@[simp] theorem State.setSlot_holds (s : State) (i : SlotId) (x : CacheSlot) : (s.setSlot i x).holds = s.holds := rfl
@[simp] theorem State.setSlot_stations (s : State) (i : SlotId) (x : CacheSlot) : (s.setSlot i x).stations = s.stations := rfl
@[simp] theorem State.setSlot_overflow (s : State) (i : SlotId) (x : CacheSlot) : (s.setSlot i x).overflow = s.overflow := rfl
@[simp] theorem State.setSlot_ticketCounter (s : State) (i : SlotId) (x : CacheSlot) : (s.setSlot i x).ticketCounter = s.ticketCounter := rfl
@[simp] theorem State.setSlot_check (s : State) (i : SlotId) (x : CacheSlot) : (s.setSlot i x).check = s.check := rfl
@[simp] theorem State.setSlot_engineWait (s : State) (i : SlotId) (x : CacheSlot) : (s.setSlot i x).engineWait = s.engineWait := rfl

/-! ### touch -/

@[simp] theorem State.touch_pending (s : State) (i : SlotId) : (s.touch i).pending = s.pending := rfl
@[simp] theorem State.touch_now (s : State) (i : SlotId) : (s.touch i).now = s.now := rfl
@[simp] theorem State.touch_phase (s : State) (i : SlotId) : (s.touch i).phase = s.phase := rfl
@[simp] theorem State.touch_walkAt (s : State) (i : SlotId) : (s.touch i).walkAt = s.walkAt := rfl
@[simp] theorem State.touch_startUp (s : State) (i : SlotId) : (s.touch i).startUp = s.startUp := rfl
@[simp] theorem State.touch_notices (s : State) (i : SlotId) : (s.touch i).notices = s.notices := rfl
@[simp] theorem State.touch_mask (s : State) (i : SlotId) : (s.touch i).mask = s.mask := rfl
@[simp] theorem State.touch_dropped (s : State) (i : SlotId) : (s.touch i).dropped = s.dropped := rfl
@[simp] theorem State.touch_save (s : State) (i : SlotId) : (s.touch i).save = s.save := rfl
@[simp] theorem State.touch_flash (s : State) (i : SlotId) : (s.touch i).flash = s.flash := rfl
@[simp] theorem State.touch_timers (s : State) (i : SlotId) : (s.touch i).timers = s.timers := rfl
@[simp] theorem State.touch_imageTimer (s : State) (i : SlotId) : (s.touch i).imageTimer = s.imageTimer := rfl
@[simp] theorem State.touch_portTable (s : State) (i : SlotId) : (s.touch i).portTable = s.portTable := rfl
@[simp] theorem State.touch_ports (s : State) (i : SlotId) : (s.touch i).ports = s.ports := rfl
@[simp] theorem State.touch_serviceRates (s : State) (i : SlotId) : (s.touch i).serviceRates = s.serviceRates := rfl
@[simp] theorem State.touch_taxRates (s : State) (i : SlotId) : (s.touch i).taxRates = s.taxRates := rfl
@[simp] theorem State.touch_items (s : State) (i : SlotId) : (s.touch i).items = s.items := rfl
@[simp] theorem State.touch_availList (s : State) (i : SlotId) : (s.touch i).availList = s.availList := rfl
@[simp] theorem State.touch_directory (s : State) (i : SlotId) : (s.touch i).directory = s.directory := rfl
@[simp] theorem State.touch_freeList (s : State) (i : SlotId) : (s.touch i).freeList = s.freeList := rfl
@[simp] theorem State.touch_closedList (s : State) (i : SlotId) : (s.touch i).closedList = s.closedList := rfl
@[simp] theorem State.touch_slots (s : State) (i : SlotId) : (s.touch i).slots = s.slots := rfl
@[simp] theorem State.touch_tabMemory (s : State) (i : SlotId) : (s.touch i).tabMemory = s.tabMemory := rfl
@[simp] theorem State.touch_memQueue (s : State) (i : SlotId) : (s.touch i).memQueue = s.memQueue := rfl
@[simp] theorem State.touch_auditQueued (s : State) (i : SlotId) : (s.touch i).auditQueued = s.auditQueued := rfl
@[simp] theorem State.touch_memRunning (s : State) (i : SlotId) : (s.touch i).memRunning = s.memRunning := rfl
@[simp] theorem State.touch_flush (s : State) (i : SlotId) : (s.touch i).flush = s.flush := rfl
@[simp] theorem State.touch_audit (s : State) (i : SlotId) : (s.touch i).audit = s.audit := rfl
@[simp] theorem State.touch_holds (s : State) (i : SlotId) : (s.touch i).holds = s.holds := rfl
@[simp] theorem State.touch_stations (s : State) (i : SlotId) : (s.touch i).stations = s.stations := rfl
@[simp] theorem State.touch_overflow (s : State) (i : SlotId) : (s.touch i).overflow = s.overflow := rfl
@[simp] theorem State.touch_ticketCounter (s : State) (i : SlotId) : (s.touch i).ticketCounter = s.ticketCounter := rfl
@[simp] theorem State.touch_check (s : State) (i : SlotId) : (s.touch i).check = s.check := rfl
@[simp] theorem State.touch_engineWait (s : State) (i : SlotId) : (s.touch i).engineWait = s.engineWait := rfl

/-! ### setStation -/

@[simp] theorem State.setStation_pending (s : State) (p : Port) (x : Station) : (s.setStation p x).pending = s.pending := rfl
@[simp] theorem State.setStation_now (s : State) (p : Port) (x : Station) : (s.setStation p x).now = s.now := rfl
@[simp] theorem State.setStation_phase (s : State) (p : Port) (x : Station) : (s.setStation p x).phase = s.phase := rfl
@[simp] theorem State.setStation_walkAt (s : State) (p : Port) (x : Station) : (s.setStation p x).walkAt = s.walkAt := rfl
@[simp] theorem State.setStation_startUp (s : State) (p : Port) (x : Station) : (s.setStation p x).startUp = s.startUp := rfl
@[simp] theorem State.setStation_notices (s : State) (p : Port) (x : Station) : (s.setStation p x).notices = s.notices := rfl
@[simp] theorem State.setStation_mask (s : State) (p : Port) (x : Station) : (s.setStation p x).mask = s.mask := rfl
@[simp] theorem State.setStation_dropped (s : State) (p : Port) (x : Station) : (s.setStation p x).dropped = s.dropped := rfl
@[simp] theorem State.setStation_save (s : State) (p : Port) (x : Station) : (s.setStation p x).save = s.save := rfl
@[simp] theorem State.setStation_flash (s : State) (p : Port) (x : Station) : (s.setStation p x).flash = s.flash := rfl
@[simp] theorem State.setStation_timers (s : State) (p : Port) (x : Station) : (s.setStation p x).timers = s.timers := rfl
@[simp] theorem State.setStation_imageTimer (s : State) (p : Port) (x : Station) : (s.setStation p x).imageTimer = s.imageTimer := rfl
@[simp] theorem State.setStation_portTable (s : State) (p : Port) (x : Station) : (s.setStation p x).portTable = s.portTable := rfl
@[simp] theorem State.setStation_ports (s : State) (p : Port) (x : Station) : (s.setStation p x).ports = s.ports := rfl
@[simp] theorem State.setStation_serviceRates (s : State) (p : Port) (x : Station) : (s.setStation p x).serviceRates = s.serviceRates := rfl
@[simp] theorem State.setStation_taxRates (s : State) (p : Port) (x : Station) : (s.setStation p x).taxRates = s.taxRates := rfl
@[simp] theorem State.setStation_items (s : State) (p : Port) (x : Station) : (s.setStation p x).items = s.items := rfl
@[simp] theorem State.setStation_availList (s : State) (p : Port) (x : Station) : (s.setStation p x).availList = s.availList := rfl
@[simp] theorem State.setStation_directory (s : State) (p : Port) (x : Station) : (s.setStation p x).directory = s.directory := rfl
@[simp] theorem State.setStation_freeList (s : State) (p : Port) (x : Station) : (s.setStation p x).freeList = s.freeList := rfl
@[simp] theorem State.setStation_closedList (s : State) (p : Port) (x : Station) : (s.setStation p x).closedList = s.closedList := rfl
@[simp] theorem State.setStation_slots (s : State) (p : Port) (x : Station) : (s.setStation p x).slots = s.slots := rfl
@[simp] theorem State.setStation_recency (s : State) (p : Port) (x : Station) : (s.setStation p x).recency = s.recency := rfl
@[simp] theorem State.setStation_tabMemory (s : State) (p : Port) (x : Station) : (s.setStation p x).tabMemory = s.tabMemory := rfl
@[simp] theorem State.setStation_memQueue (s : State) (p : Port) (x : Station) : (s.setStation p x).memQueue = s.memQueue := rfl
@[simp] theorem State.setStation_auditQueued (s : State) (p : Port) (x : Station) : (s.setStation p x).auditQueued = s.auditQueued := rfl
@[simp] theorem State.setStation_memRunning (s : State) (p : Port) (x : Station) : (s.setStation p x).memRunning = s.memRunning := rfl
@[simp] theorem State.setStation_flush (s : State) (p : Port) (x : Station) : (s.setStation p x).flush = s.flush := rfl
@[simp] theorem State.setStation_audit (s : State) (p : Port) (x : Station) : (s.setStation p x).audit = s.audit := rfl
@[simp] theorem State.setStation_holds (s : State) (p : Port) (x : Station) : (s.setStation p x).holds = s.holds := rfl
@[simp] theorem State.setStation_overflow (s : State) (p : Port) (x : Station) : (s.setStation p x).overflow = s.overflow := rfl
@[simp] theorem State.setStation_ticketCounter (s : State) (p : Port) (x : Station) : (s.setStation p x).ticketCounter = s.ticketCounter := rfl
@[simp] theorem State.setStation_check (s : State) (p : Port) (x : Station) : (s.setStation p x).check = s.check := rfl
@[simp] theorem State.setStation_engineWait (s : State) (p : Port) (x : Station) : (s.setStation p x).engineWait = s.engineWait := rfl

/-! ### setItem -/

@[simp] theorem State.setItem_pending (s : State) (c : Nat) (x : Option Item) : (s.setItem c x).pending = s.pending := rfl
@[simp] theorem State.setItem_now (s : State) (c : Nat) (x : Option Item) : (s.setItem c x).now = s.now := rfl
@[simp] theorem State.setItem_phase (s : State) (c : Nat) (x : Option Item) : (s.setItem c x).phase = s.phase := rfl
@[simp] theorem State.setItem_walkAt (s : State) (c : Nat) (x : Option Item) : (s.setItem c x).walkAt = s.walkAt := rfl
@[simp] theorem State.setItem_startUp (s : State) (c : Nat) (x : Option Item) : (s.setItem c x).startUp = s.startUp := rfl
@[simp] theorem State.setItem_notices (s : State) (c : Nat) (x : Option Item) : (s.setItem c x).notices = s.notices := rfl
@[simp] theorem State.setItem_mask (s : State) (c : Nat) (x : Option Item) : (s.setItem c x).mask = s.mask := rfl
@[simp] theorem State.setItem_dropped (s : State) (c : Nat) (x : Option Item) : (s.setItem c x).dropped = s.dropped := rfl
@[simp] theorem State.setItem_save (s : State) (c : Nat) (x : Option Item) : (s.setItem c x).save = s.save := rfl
@[simp] theorem State.setItem_flash (s : State) (c : Nat) (x : Option Item) : (s.setItem c x).flash = s.flash := rfl
@[simp] theorem State.setItem_timers (s : State) (c : Nat) (x : Option Item) : (s.setItem c x).timers = s.timers := rfl
@[simp] theorem State.setItem_imageTimer (s : State) (c : Nat) (x : Option Item) : (s.setItem c x).imageTimer = s.imageTimer := rfl
@[simp] theorem State.setItem_portTable (s : State) (c : Nat) (x : Option Item) : (s.setItem c x).portTable = s.portTable := rfl
@[simp] theorem State.setItem_ports (s : State) (c : Nat) (x : Option Item) : (s.setItem c x).ports = s.ports := rfl
@[simp] theorem State.setItem_serviceRates (s : State) (c : Nat) (x : Option Item) : (s.setItem c x).serviceRates = s.serviceRates := rfl
@[simp] theorem State.setItem_taxRates (s : State) (c : Nat) (x : Option Item) : (s.setItem c x).taxRates = s.taxRates := rfl
@[simp] theorem State.setItem_availList (s : State) (c : Nat) (x : Option Item) : (s.setItem c x).availList = s.availList := rfl
@[simp] theorem State.setItem_directory (s : State) (c : Nat) (x : Option Item) : (s.setItem c x).directory = s.directory := rfl
@[simp] theorem State.setItem_freeList (s : State) (c : Nat) (x : Option Item) : (s.setItem c x).freeList = s.freeList := rfl
@[simp] theorem State.setItem_closedList (s : State) (c : Nat) (x : Option Item) : (s.setItem c x).closedList = s.closedList := rfl
@[simp] theorem State.setItem_slots (s : State) (c : Nat) (x : Option Item) : (s.setItem c x).slots = s.slots := rfl
@[simp] theorem State.setItem_recency (s : State) (c : Nat) (x : Option Item) : (s.setItem c x).recency = s.recency := rfl
@[simp] theorem State.setItem_tabMemory (s : State) (c : Nat) (x : Option Item) : (s.setItem c x).tabMemory = s.tabMemory := rfl
@[simp] theorem State.setItem_memQueue (s : State) (c : Nat) (x : Option Item) : (s.setItem c x).memQueue = s.memQueue := rfl
@[simp] theorem State.setItem_auditQueued (s : State) (c : Nat) (x : Option Item) : (s.setItem c x).auditQueued = s.auditQueued := rfl
@[simp] theorem State.setItem_memRunning (s : State) (c : Nat) (x : Option Item) : (s.setItem c x).memRunning = s.memRunning := rfl
@[simp] theorem State.setItem_flush (s : State) (c : Nat) (x : Option Item) : (s.setItem c x).flush = s.flush := rfl
@[simp] theorem State.setItem_audit (s : State) (c : Nat) (x : Option Item) : (s.setItem c x).audit = s.audit := rfl
@[simp] theorem State.setItem_holds (s : State) (c : Nat) (x : Option Item) : (s.setItem c x).holds = s.holds := rfl
@[simp] theorem State.setItem_stations (s : State) (c : Nat) (x : Option Item) : (s.setItem c x).stations = s.stations := rfl
@[simp] theorem State.setItem_overflow (s : State) (c : Nat) (x : Option Item) : (s.setItem c x).overflow = s.overflow := rfl
@[simp] theorem State.setItem_ticketCounter (s : State) (c : Nat) (x : Option Item) : (s.setItem c x).ticketCounter = s.ticketCounter := rfl
@[simp] theorem State.setItem_check (s : State) (c : Nat) (x : Option Item) : (s.setItem c x).check = s.check := rfl
@[simp] theorem State.setItem_engineWait (s : State) (c : Nat) (x : Option Item) : (s.setItem c x).engineWait = s.engineWait := rfl

/-! ### writeRecord -/

@[simp] theorem State.writeRecord_pending (s : State) (i : SlotId) (r : TabRecord) : (s.writeRecord i r).pending = s.pending := rfl
@[simp] theorem State.writeRecord_now (s : State) (i : SlotId) (r : TabRecord) : (s.writeRecord i r).now = s.now := rfl
@[simp] theorem State.writeRecord_phase (s : State) (i : SlotId) (r : TabRecord) : (s.writeRecord i r).phase = s.phase := rfl
@[simp] theorem State.writeRecord_walkAt (s : State) (i : SlotId) (r : TabRecord) : (s.writeRecord i r).walkAt = s.walkAt := rfl
@[simp] theorem State.writeRecord_startUp (s : State) (i : SlotId) (r : TabRecord) : (s.writeRecord i r).startUp = s.startUp := rfl
@[simp] theorem State.writeRecord_notices (s : State) (i : SlotId) (r : TabRecord) : (s.writeRecord i r).notices = s.notices := rfl
@[simp] theorem State.writeRecord_mask (s : State) (i : SlotId) (r : TabRecord) : (s.writeRecord i r).mask = s.mask := rfl
@[simp] theorem State.writeRecord_dropped (s : State) (i : SlotId) (r : TabRecord) : (s.writeRecord i r).dropped = s.dropped := rfl
@[simp] theorem State.writeRecord_save (s : State) (i : SlotId) (r : TabRecord) : (s.writeRecord i r).save = s.save := rfl
@[simp] theorem State.writeRecord_flash (s : State) (i : SlotId) (r : TabRecord) : (s.writeRecord i r).flash = s.flash := rfl
@[simp] theorem State.writeRecord_timers (s : State) (i : SlotId) (r : TabRecord) : (s.writeRecord i r).timers = s.timers := rfl
@[simp] theorem State.writeRecord_imageTimer (s : State) (i : SlotId) (r : TabRecord) : (s.writeRecord i r).imageTimer = s.imageTimer := rfl
@[simp] theorem State.writeRecord_portTable (s : State) (i : SlotId) (r : TabRecord) : (s.writeRecord i r).portTable = s.portTable := rfl
@[simp] theorem State.writeRecord_ports (s : State) (i : SlotId) (r : TabRecord) : (s.writeRecord i r).ports = s.ports := rfl
@[simp] theorem State.writeRecord_serviceRates (s : State) (i : SlotId) (r : TabRecord) : (s.writeRecord i r).serviceRates = s.serviceRates := rfl
@[simp] theorem State.writeRecord_taxRates (s : State) (i : SlotId) (r : TabRecord) : (s.writeRecord i r).taxRates = s.taxRates := rfl
@[simp] theorem State.writeRecord_items (s : State) (i : SlotId) (r : TabRecord) : (s.writeRecord i r).items = s.items := rfl
@[simp] theorem State.writeRecord_availList (s : State) (i : SlotId) (r : TabRecord) : (s.writeRecord i r).availList = s.availList := rfl
@[simp] theorem State.writeRecord_directory (s : State) (i : SlotId) (r : TabRecord) : (s.writeRecord i r).directory = s.directory := rfl
@[simp] theorem State.writeRecord_freeList (s : State) (i : SlotId) (r : TabRecord) : (s.writeRecord i r).freeList = s.freeList := rfl
@[simp] theorem State.writeRecord_closedList (s : State) (i : SlotId) (r : TabRecord) : (s.writeRecord i r).closedList = s.closedList := rfl
@[simp] theorem State.writeRecord_recency (s : State) (i : SlotId) (r : TabRecord) : (s.writeRecord i r).recency = s.recency := rfl
@[simp] theorem State.writeRecord_tabMemory (s : State) (i : SlotId) (r : TabRecord) : (s.writeRecord i r).tabMemory = s.tabMemory := rfl
@[simp] theorem State.writeRecord_memQueue (s : State) (i : SlotId) (r : TabRecord) : (s.writeRecord i r).memQueue = s.memQueue := rfl
@[simp] theorem State.writeRecord_auditQueued (s : State) (i : SlotId) (r : TabRecord) : (s.writeRecord i r).auditQueued = s.auditQueued := rfl
@[simp] theorem State.writeRecord_memRunning (s : State) (i : SlotId) (r : TabRecord) : (s.writeRecord i r).memRunning = s.memRunning := rfl
@[simp] theorem State.writeRecord_flush (s : State) (i : SlotId) (r : TabRecord) : (s.writeRecord i r).flush = s.flush := rfl
@[simp] theorem State.writeRecord_audit (s : State) (i : SlotId) (r : TabRecord) : (s.writeRecord i r).audit = s.audit := rfl
@[simp] theorem State.writeRecord_holds (s : State) (i : SlotId) (r : TabRecord) : (s.writeRecord i r).holds = s.holds := rfl
@[simp] theorem State.writeRecord_stations (s : State) (i : SlotId) (r : TabRecord) : (s.writeRecord i r).stations = s.stations := rfl
@[simp] theorem State.writeRecord_overflow (s : State) (i : SlotId) (r : TabRecord) : (s.writeRecord i r).overflow = s.overflow := rfl
@[simp] theorem State.writeRecord_ticketCounter (s : State) (i : SlotId) (r : TabRecord) : (s.writeRecord i r).ticketCounter = s.ticketCounter := rfl
@[simp] theorem State.writeRecord_check (s : State) (i : SlotId) (r : TabRecord) : (s.writeRecord i r).check = s.check := rfl
@[simp] theorem State.writeRecord_engineWait (s : State) (i : SlotId) (r : TabRecord) : (s.writeRecord i r).engineWait = s.engineWait := rfl

/-! ### markStale -/

@[simp] theorem State.markStale_pending (s : State) (p : Port) : (s.markStale p).pending = s.pending := rfl
@[simp] theorem State.markStale_now (s : State) (p : Port) : (s.markStale p).now = s.now := rfl
@[simp] theorem State.markStale_phase (s : State) (p : Port) : (s.markStale p).phase = s.phase := rfl
@[simp] theorem State.markStale_walkAt (s : State) (p : Port) : (s.markStale p).walkAt = s.walkAt := rfl
@[simp] theorem State.markStale_startUp (s : State) (p : Port) : (s.markStale p).startUp = s.startUp := rfl
@[simp] theorem State.markStale_notices (s : State) (p : Port) : (s.markStale p).notices = s.notices := rfl
@[simp] theorem State.markStale_mask (s : State) (p : Port) : (s.markStale p).mask = s.mask := rfl
@[simp] theorem State.markStale_dropped (s : State) (p : Port) : (s.markStale p).dropped = s.dropped := rfl
@[simp] theorem State.markStale_save (s : State) (p : Port) : (s.markStale p).save = s.save := rfl
@[simp] theorem State.markStale_flash (s : State) (p : Port) : (s.markStale p).flash = s.flash := rfl
@[simp] theorem State.markStale_timers (s : State) (p : Port) : (s.markStale p).timers = s.timers := rfl
@[simp] theorem State.markStale_imageTimer (s : State) (p : Port) : (s.markStale p).imageTimer = s.imageTimer := rfl
@[simp] theorem State.markStale_portTable (s : State) (p : Port) : (s.markStale p).portTable = s.portTable := rfl
@[simp] theorem State.markStale_serviceRates (s : State) (p : Port) : (s.markStale p).serviceRates = s.serviceRates := rfl
@[simp] theorem State.markStale_taxRates (s : State) (p : Port) : (s.markStale p).taxRates = s.taxRates := rfl
@[simp] theorem State.markStale_items (s : State) (p : Port) : (s.markStale p).items = s.items := rfl
@[simp] theorem State.markStale_availList (s : State) (p : Port) : (s.markStale p).availList = s.availList := rfl
@[simp] theorem State.markStale_directory (s : State) (p : Port) : (s.markStale p).directory = s.directory := rfl
@[simp] theorem State.markStale_freeList (s : State) (p : Port) : (s.markStale p).freeList = s.freeList := rfl
@[simp] theorem State.markStale_closedList (s : State) (p : Port) : (s.markStale p).closedList = s.closedList := rfl
@[simp] theorem State.markStale_slots (s : State) (p : Port) : (s.markStale p).slots = s.slots := rfl
@[simp] theorem State.markStale_recency (s : State) (p : Port) : (s.markStale p).recency = s.recency := rfl
@[simp] theorem State.markStale_tabMemory (s : State) (p : Port) : (s.markStale p).tabMemory = s.tabMemory := rfl
@[simp] theorem State.markStale_memQueue (s : State) (p : Port) : (s.markStale p).memQueue = s.memQueue := rfl
@[simp] theorem State.markStale_auditQueued (s : State) (p : Port) : (s.markStale p).auditQueued = s.auditQueued := rfl
@[simp] theorem State.markStale_memRunning (s : State) (p : Port) : (s.markStale p).memRunning = s.memRunning := rfl
@[simp] theorem State.markStale_flush (s : State) (p : Port) : (s.markStale p).flush = s.flush := rfl
@[simp] theorem State.markStale_audit (s : State) (p : Port) : (s.markStale p).audit = s.audit := rfl
@[simp] theorem State.markStale_holds (s : State) (p : Port) : (s.markStale p).holds = s.holds := rfl
@[simp] theorem State.markStale_stations (s : State) (p : Port) : (s.markStale p).stations = s.stations := rfl
@[simp] theorem State.markStale_overflow (s : State) (p : Port) : (s.markStale p).overflow = s.overflow := rfl
@[simp] theorem State.markStale_ticketCounter (s : State) (p : Port) : (s.markStale p).ticketCounter = s.ticketCounter := rfl
@[simp] theorem State.markStale_check (s : State) (p : Port) : (s.markStale p).check = s.check := rfl
@[simp] theorem State.markStale_engineWait (s : State) (p : Port) : (s.markStale p).engineWait = s.engineWait := rfl

/-! ### delimit -/

@[simp] theorem State.delimit_pending (s : State) (p : Port) : (s.delimit p).pending = s.pending := rfl
@[simp] theorem State.delimit_now (s : State) (p : Port) : (s.delimit p).now = s.now := rfl
@[simp] theorem State.delimit_phase (s : State) (p : Port) : (s.delimit p).phase = s.phase := rfl
@[simp] theorem State.delimit_walkAt (s : State) (p : Port) : (s.delimit p).walkAt = s.walkAt := rfl
@[simp] theorem State.delimit_startUp (s : State) (p : Port) : (s.delimit p).startUp = s.startUp := rfl
@[simp] theorem State.delimit_notices (s : State) (p : Port) : (s.delimit p).notices = s.notices := rfl
@[simp] theorem State.delimit_mask (s : State) (p : Port) : (s.delimit p).mask = s.mask := rfl
@[simp] theorem State.delimit_dropped (s : State) (p : Port) : (s.delimit p).dropped = s.dropped := rfl
@[simp] theorem State.delimit_save (s : State) (p : Port) : (s.delimit p).save = s.save := rfl
@[simp] theorem State.delimit_flash (s : State) (p : Port) : (s.delimit p).flash = s.flash := rfl
@[simp] theorem State.delimit_timers (s : State) (p : Port) : (s.delimit p).timers = s.timers := rfl
@[simp] theorem State.delimit_imageTimer (s : State) (p : Port) : (s.delimit p).imageTimer = s.imageTimer := rfl
@[simp] theorem State.delimit_portTable (s : State) (p : Port) : (s.delimit p).portTable = s.portTable := rfl
@[simp] theorem State.delimit_serviceRates (s : State) (p : Port) : (s.delimit p).serviceRates = s.serviceRates := rfl
@[simp] theorem State.delimit_taxRates (s : State) (p : Port) : (s.delimit p).taxRates = s.taxRates := rfl
@[simp] theorem State.delimit_items (s : State) (p : Port) : (s.delimit p).items = s.items := rfl
@[simp] theorem State.delimit_availList (s : State) (p : Port) : (s.delimit p).availList = s.availList := rfl
@[simp] theorem State.delimit_directory (s : State) (p : Port) : (s.delimit p).directory = s.directory := rfl
@[simp] theorem State.delimit_freeList (s : State) (p : Port) : (s.delimit p).freeList = s.freeList := rfl
@[simp] theorem State.delimit_closedList (s : State) (p : Port) : (s.delimit p).closedList = s.closedList := rfl
@[simp] theorem State.delimit_slots (s : State) (p : Port) : (s.delimit p).slots = s.slots := rfl
@[simp] theorem State.delimit_recency (s : State) (p : Port) : (s.delimit p).recency = s.recency := rfl
@[simp] theorem State.delimit_tabMemory (s : State) (p : Port) : (s.delimit p).tabMemory = s.tabMemory := rfl
@[simp] theorem State.delimit_memQueue (s : State) (p : Port) : (s.delimit p).memQueue = s.memQueue := rfl
@[simp] theorem State.delimit_auditQueued (s : State) (p : Port) : (s.delimit p).auditQueued = s.auditQueued := rfl
@[simp] theorem State.delimit_memRunning (s : State) (p : Port) : (s.delimit p).memRunning = s.memRunning := rfl
@[simp] theorem State.delimit_flush (s : State) (p : Port) : (s.delimit p).flush = s.flush := rfl
@[simp] theorem State.delimit_audit (s : State) (p : Port) : (s.delimit p).audit = s.audit := rfl
@[simp] theorem State.delimit_holds (s : State) (p : Port) : (s.delimit p).holds = s.holds := rfl
@[simp] theorem State.delimit_stations (s : State) (p : Port) : (s.delimit p).stations = s.stations := rfl
@[simp] theorem State.delimit_overflow (s : State) (p : Port) : (s.delimit p).overflow = s.overflow := rfl
@[simp] theorem State.delimit_ticketCounter (s : State) (p : Port) : (s.delimit p).ticketCounter = s.ticketCounter := rfl
@[simp] theorem State.delimit_check (s : State) (p : Port) : (s.delimit p).check = s.check := rfl
@[simp] theorem State.delimit_engineWait (s : State) (p : Port) : (s.delimit p).engineWait = s.engineWait := rfl

/-! ### occupy -/

@[simp] theorem State.occupy_pending (s : State) (p : Port) (k : Kind) (tag : Byte) : (s.occupy p k tag).pending = s.pending := rfl
@[simp] theorem State.occupy_now (s : State) (p : Port) (k : Kind) (tag : Byte) : (s.occupy p k tag).now = s.now := rfl
@[simp] theorem State.occupy_phase (s : State) (p : Port) (k : Kind) (tag : Byte) : (s.occupy p k tag).phase = s.phase := rfl
@[simp] theorem State.occupy_walkAt (s : State) (p : Port) (k : Kind) (tag : Byte) : (s.occupy p k tag).walkAt = s.walkAt := rfl
@[simp] theorem State.occupy_startUp (s : State) (p : Port) (k : Kind) (tag : Byte) : (s.occupy p k tag).startUp = s.startUp := rfl
@[simp] theorem State.occupy_notices (s : State) (p : Port) (k : Kind) (tag : Byte) : (s.occupy p k tag).notices = s.notices := rfl
@[simp] theorem State.occupy_mask (s : State) (p : Port) (k : Kind) (tag : Byte) : (s.occupy p k tag).mask = s.mask := rfl
@[simp] theorem State.occupy_dropped (s : State) (p : Port) (k : Kind) (tag : Byte) : (s.occupy p k tag).dropped = s.dropped := rfl
@[simp] theorem State.occupy_save (s : State) (p : Port) (k : Kind) (tag : Byte) : (s.occupy p k tag).save = s.save := rfl
@[simp] theorem State.occupy_flash (s : State) (p : Port) (k : Kind) (tag : Byte) : (s.occupy p k tag).flash = s.flash := rfl
@[simp] theorem State.occupy_timers (s : State) (p : Port) (k : Kind) (tag : Byte) : (s.occupy p k tag).timers = s.timers := rfl
@[simp] theorem State.occupy_imageTimer (s : State) (p : Port) (k : Kind) (tag : Byte) : (s.occupy p k tag).imageTimer = s.imageTimer := rfl
@[simp] theorem State.occupy_portTable (s : State) (p : Port) (k : Kind) (tag : Byte) : (s.occupy p k tag).portTable = s.portTable := rfl
@[simp] theorem State.occupy_serviceRates (s : State) (p : Port) (k : Kind) (tag : Byte) : (s.occupy p k tag).serviceRates = s.serviceRates := rfl
@[simp] theorem State.occupy_taxRates (s : State) (p : Port) (k : Kind) (tag : Byte) : (s.occupy p k tag).taxRates = s.taxRates := rfl
@[simp] theorem State.occupy_items (s : State) (p : Port) (k : Kind) (tag : Byte) : (s.occupy p k tag).items = s.items := rfl
@[simp] theorem State.occupy_availList (s : State) (p : Port) (k : Kind) (tag : Byte) : (s.occupy p k tag).availList = s.availList := rfl
@[simp] theorem State.occupy_directory (s : State) (p : Port) (k : Kind) (tag : Byte) : (s.occupy p k tag).directory = s.directory := rfl
@[simp] theorem State.occupy_freeList (s : State) (p : Port) (k : Kind) (tag : Byte) : (s.occupy p k tag).freeList = s.freeList := rfl
@[simp] theorem State.occupy_closedList (s : State) (p : Port) (k : Kind) (tag : Byte) : (s.occupy p k tag).closedList = s.closedList := rfl
@[simp] theorem State.occupy_slots (s : State) (p : Port) (k : Kind) (tag : Byte) : (s.occupy p k tag).slots = s.slots := rfl
@[simp] theorem State.occupy_recency (s : State) (p : Port) (k : Kind) (tag : Byte) : (s.occupy p k tag).recency = s.recency := rfl
@[simp] theorem State.occupy_tabMemory (s : State) (p : Port) (k : Kind) (tag : Byte) : (s.occupy p k tag).tabMemory = s.tabMemory := rfl
@[simp] theorem State.occupy_memQueue (s : State) (p : Port) (k : Kind) (tag : Byte) : (s.occupy p k tag).memQueue = s.memQueue := rfl
@[simp] theorem State.occupy_auditQueued (s : State) (p : Port) (k : Kind) (tag : Byte) : (s.occupy p k tag).auditQueued = s.auditQueued := rfl
@[simp] theorem State.occupy_memRunning (s : State) (p : Port) (k : Kind) (tag : Byte) : (s.occupy p k tag).memRunning = s.memRunning := rfl
@[simp] theorem State.occupy_flush (s : State) (p : Port) (k : Kind) (tag : Byte) : (s.occupy p k tag).flush = s.flush := rfl
@[simp] theorem State.occupy_audit (s : State) (p : Port) (k : Kind) (tag : Byte) : (s.occupy p k tag).audit = s.audit := rfl
@[simp] theorem State.occupy_holds (s : State) (p : Port) (k : Kind) (tag : Byte) : (s.occupy p k tag).holds = s.holds := rfl
@[simp] theorem State.occupy_stations (s : State) (p : Port) (k : Kind) (tag : Byte) : (s.occupy p k tag).stations = s.stations := rfl
@[simp] theorem State.occupy_overflow (s : State) (p : Port) (k : Kind) (tag : Byte) : (s.occupy p k tag).overflow = s.overflow := rfl
@[simp] theorem State.occupy_ticketCounter (s : State) (p : Port) (k : Kind) (tag : Byte) : (s.occupy p k tag).ticketCounter = s.ticketCounter := rfl
@[simp] theorem State.occupy_check (s : State) (p : Port) (k : Kind) (tag : Byte) : (s.occupy p k tag).check = s.check := rfl
@[simp] theorem State.occupy_engineWait (s : State) (p : Port) (k : Kind) (tag : Byte) : (s.occupy p k tag).engineWait = s.engineWait := rfl

/-! ### sendOwn -/

@[simp] theorem State.sendOwn_pending (s : State) (p : Port) (k : Kind) (body : List Byte) (source : TxSource) : (s.sendOwn p k body source).pending = s.pending := rfl
@[simp] theorem State.sendOwn_now (s : State) (p : Port) (k : Kind) (body : List Byte) (source : TxSource) : (s.sendOwn p k body source).now = s.now := rfl
@[simp] theorem State.sendOwn_phase (s : State) (p : Port) (k : Kind) (body : List Byte) (source : TxSource) : (s.sendOwn p k body source).phase = s.phase := rfl
@[simp] theorem State.sendOwn_walkAt (s : State) (p : Port) (k : Kind) (body : List Byte) (source : TxSource) : (s.sendOwn p k body source).walkAt = s.walkAt := rfl
@[simp] theorem State.sendOwn_startUp (s : State) (p : Port) (k : Kind) (body : List Byte) (source : TxSource) : (s.sendOwn p k body source).startUp = s.startUp := rfl
@[simp] theorem State.sendOwn_notices (s : State) (p : Port) (k : Kind) (body : List Byte) (source : TxSource) : (s.sendOwn p k body source).notices = s.notices := rfl
@[simp] theorem State.sendOwn_mask (s : State) (p : Port) (k : Kind) (body : List Byte) (source : TxSource) : (s.sendOwn p k body source).mask = s.mask := rfl
@[simp] theorem State.sendOwn_dropped (s : State) (p : Port) (k : Kind) (body : List Byte) (source : TxSource) : (s.sendOwn p k body source).dropped = s.dropped := rfl
@[simp] theorem State.sendOwn_save (s : State) (p : Port) (k : Kind) (body : List Byte) (source : TxSource) : (s.sendOwn p k body source).save = s.save := rfl
@[simp] theorem State.sendOwn_flash (s : State) (p : Port) (k : Kind) (body : List Byte) (source : TxSource) : (s.sendOwn p k body source).flash = s.flash := rfl
@[simp] theorem State.sendOwn_timers (s : State) (p : Port) (k : Kind) (body : List Byte) (source : TxSource) : (s.sendOwn p k body source).timers = s.timers := rfl
@[simp] theorem State.sendOwn_imageTimer (s : State) (p : Port) (k : Kind) (body : List Byte) (source : TxSource) : (s.sendOwn p k body source).imageTimer = s.imageTimer := rfl
@[simp] theorem State.sendOwn_portTable (s : State) (p : Port) (k : Kind) (body : List Byte) (source : TxSource) : (s.sendOwn p k body source).portTable = s.portTable := rfl
@[simp] theorem State.sendOwn_serviceRates (s : State) (p : Port) (k : Kind) (body : List Byte) (source : TxSource) : (s.sendOwn p k body source).serviceRates = s.serviceRates := rfl
@[simp] theorem State.sendOwn_taxRates (s : State) (p : Port) (k : Kind) (body : List Byte) (source : TxSource) : (s.sendOwn p k body source).taxRates = s.taxRates := rfl
@[simp] theorem State.sendOwn_items (s : State) (p : Port) (k : Kind) (body : List Byte) (source : TxSource) : (s.sendOwn p k body source).items = s.items := rfl
@[simp] theorem State.sendOwn_availList (s : State) (p : Port) (k : Kind) (body : List Byte) (source : TxSource) : (s.sendOwn p k body source).availList = s.availList := rfl
@[simp] theorem State.sendOwn_directory (s : State) (p : Port) (k : Kind) (body : List Byte) (source : TxSource) : (s.sendOwn p k body source).directory = s.directory := rfl
@[simp] theorem State.sendOwn_freeList (s : State) (p : Port) (k : Kind) (body : List Byte) (source : TxSource) : (s.sendOwn p k body source).freeList = s.freeList := rfl
@[simp] theorem State.sendOwn_closedList (s : State) (p : Port) (k : Kind) (body : List Byte) (source : TxSource) : (s.sendOwn p k body source).closedList = s.closedList := rfl
@[simp] theorem State.sendOwn_slots (s : State) (p : Port) (k : Kind) (body : List Byte) (source : TxSource) : (s.sendOwn p k body source).slots = s.slots := rfl
@[simp] theorem State.sendOwn_recency (s : State) (p : Port) (k : Kind) (body : List Byte) (source : TxSource) : (s.sendOwn p k body source).recency = s.recency := rfl
@[simp] theorem State.sendOwn_tabMemory (s : State) (p : Port) (k : Kind) (body : List Byte) (source : TxSource) : (s.sendOwn p k body source).tabMemory = s.tabMemory := rfl
@[simp] theorem State.sendOwn_memQueue (s : State) (p : Port) (k : Kind) (body : List Byte) (source : TxSource) : (s.sendOwn p k body source).memQueue = s.memQueue := rfl
@[simp] theorem State.sendOwn_auditQueued (s : State) (p : Port) (k : Kind) (body : List Byte) (source : TxSource) : (s.sendOwn p k body source).auditQueued = s.auditQueued := rfl
@[simp] theorem State.sendOwn_memRunning (s : State) (p : Port) (k : Kind) (body : List Byte) (source : TxSource) : (s.sendOwn p k body source).memRunning = s.memRunning := rfl
@[simp] theorem State.sendOwn_flush (s : State) (p : Port) (k : Kind) (body : List Byte) (source : TxSource) : (s.sendOwn p k body source).flush = s.flush := rfl
@[simp] theorem State.sendOwn_audit (s : State) (p : Port) (k : Kind) (body : List Byte) (source : TxSource) : (s.sendOwn p k body source).audit = s.audit := rfl
@[simp] theorem State.sendOwn_holds (s : State) (p : Port) (k : Kind) (body : List Byte) (source : TxSource) : (s.sendOwn p k body source).holds = s.holds := rfl
@[simp] theorem State.sendOwn_stations (s : State) (p : Port) (k : Kind) (body : List Byte) (source : TxSource) : (s.sendOwn p k body source).stations = s.stations := rfl
@[simp] theorem State.sendOwn_overflow (s : State) (p : Port) (k : Kind) (body : List Byte) (source : TxSource) : (s.sendOwn p k body source).overflow = s.overflow := rfl
@[simp] theorem State.sendOwn_ticketCounter (s : State) (p : Port) (k : Kind) (body : List Byte) (source : TxSource) : (s.sendOwn p k body source).ticketCounter = s.ticketCounter := rfl
@[simp] theorem State.sendOwn_check (s : State) (p : Port) (k : Kind) (body : List Byte) (source : TxSource) : (s.sendOwn p k body source).check = s.check := rfl
@[simp] theorem State.sendOwn_engineWait (s : State) (p : Port) (k : Kind) (body : List Byte) (source : TxSource) : (s.sendOwn p k body source).engineWait = s.engineWait := rfl

/-! ### takeHold -/

@[simp] theorem State.takeHold_pending (s : State) (p : Port) (t : Nat) : (s.takeHold p t).pending = s.pending := rfl
@[simp] theorem State.takeHold_now (s : State) (p : Port) (t : Nat) : (s.takeHold p t).now = s.now := rfl
@[simp] theorem State.takeHold_phase (s : State) (p : Port) (t : Nat) : (s.takeHold p t).phase = s.phase := rfl
@[simp] theorem State.takeHold_walkAt (s : State) (p : Port) (t : Nat) : (s.takeHold p t).walkAt = s.walkAt := rfl
@[simp] theorem State.takeHold_startUp (s : State) (p : Port) (t : Nat) : (s.takeHold p t).startUp = s.startUp := rfl
@[simp] theorem State.takeHold_notices (s : State) (p : Port) (t : Nat) : (s.takeHold p t).notices = s.notices := rfl
@[simp] theorem State.takeHold_mask (s : State) (p : Port) (t : Nat) : (s.takeHold p t).mask = s.mask := rfl
@[simp] theorem State.takeHold_dropped (s : State) (p : Port) (t : Nat) : (s.takeHold p t).dropped = s.dropped := rfl
@[simp] theorem State.takeHold_save (s : State) (p : Port) (t : Nat) : (s.takeHold p t).save = s.save := rfl
@[simp] theorem State.takeHold_flash (s : State) (p : Port) (t : Nat) : (s.takeHold p t).flash = s.flash := rfl
@[simp] theorem State.takeHold_timers (s : State) (p : Port) (t : Nat) : (s.takeHold p t).timers = s.timers := rfl
@[simp] theorem State.takeHold_imageTimer (s : State) (p : Port) (t : Nat) : (s.takeHold p t).imageTimer = s.imageTimer := rfl
@[simp] theorem State.takeHold_portTable (s : State) (p : Port) (t : Nat) : (s.takeHold p t).portTable = s.portTable := rfl
@[simp] theorem State.takeHold_ports (s : State) (p : Port) (t : Nat) : (s.takeHold p t).ports = s.ports := rfl
@[simp] theorem State.takeHold_serviceRates (s : State) (p : Port) (t : Nat) : (s.takeHold p t).serviceRates = s.serviceRates := rfl
@[simp] theorem State.takeHold_taxRates (s : State) (p : Port) (t : Nat) : (s.takeHold p t).taxRates = s.taxRates := rfl
@[simp] theorem State.takeHold_items (s : State) (p : Port) (t : Nat) : (s.takeHold p t).items = s.items := rfl
@[simp] theorem State.takeHold_availList (s : State) (p : Port) (t : Nat) : (s.takeHold p t).availList = s.availList := rfl
@[simp] theorem State.takeHold_freeList (s : State) (p : Port) (t : Nat) : (s.takeHold p t).freeList = s.freeList := rfl
@[simp] theorem State.takeHold_closedList (s : State) (p : Port) (t : Nat) : (s.takeHold p t).closedList = s.closedList := rfl
@[simp] theorem State.takeHold_slots (s : State) (p : Port) (t : Nat) : (s.takeHold p t).slots = s.slots := rfl
@[simp] theorem State.takeHold_recency (s : State) (p : Port) (t : Nat) : (s.takeHold p t).recency = s.recency := rfl
@[simp] theorem State.takeHold_tabMemory (s : State) (p : Port) (t : Nat) : (s.takeHold p t).tabMemory = s.tabMemory := rfl
@[simp] theorem State.takeHold_memQueue (s : State) (p : Port) (t : Nat) : (s.takeHold p t).memQueue = s.memQueue := rfl
@[simp] theorem State.takeHold_auditQueued (s : State) (p : Port) (t : Nat) : (s.takeHold p t).auditQueued = s.auditQueued := rfl
@[simp] theorem State.takeHold_memRunning (s : State) (p : Port) (t : Nat) : (s.takeHold p t).memRunning = s.memRunning := rfl
@[simp] theorem State.takeHold_flush (s : State) (p : Port) (t : Nat) : (s.takeHold p t).flush = s.flush := rfl
@[simp] theorem State.takeHold_audit (s : State) (p : Port) (t : Nat) : (s.takeHold p t).audit = s.audit := rfl
@[simp] theorem State.takeHold_stations (s : State) (p : Port) (t : Nat) : (s.takeHold p t).stations = s.stations := rfl
@[simp] theorem State.takeHold_overflow (s : State) (p : Port) (t : Nat) : (s.takeHold p t).overflow = s.overflow := rfl
@[simp] theorem State.takeHold_ticketCounter (s : State) (p : Port) (t : Nat) : (s.takeHold p t).ticketCounter = s.ticketCounter := rfl
@[simp] theorem State.takeHold_check (s : State) (p : Port) (t : Nat) : (s.takeHold p t).check = s.check := rfl
@[simp] theorem State.takeHold_engineWait (s : State) (p : Port) (t : Nat) : (s.takeHold p t).engineWait = s.engineWait := rfl

/-! ### setCached -/

@[simp] theorem State.setCached_pending (s : State) (t : Nat) (i : Option SlotId) : (s.setCached t i).pending = s.pending := rfl
@[simp] theorem State.setCached_now (s : State) (t : Nat) (i : Option SlotId) : (s.setCached t i).now = s.now := rfl
@[simp] theorem State.setCached_phase (s : State) (t : Nat) (i : Option SlotId) : (s.setCached t i).phase = s.phase := rfl
@[simp] theorem State.setCached_walkAt (s : State) (t : Nat) (i : Option SlotId) : (s.setCached t i).walkAt = s.walkAt := rfl
@[simp] theorem State.setCached_startUp (s : State) (t : Nat) (i : Option SlotId) : (s.setCached t i).startUp = s.startUp := rfl
@[simp] theorem State.setCached_notices (s : State) (t : Nat) (i : Option SlotId) : (s.setCached t i).notices = s.notices := rfl
@[simp] theorem State.setCached_mask (s : State) (t : Nat) (i : Option SlotId) : (s.setCached t i).mask = s.mask := rfl
@[simp] theorem State.setCached_dropped (s : State) (t : Nat) (i : Option SlotId) : (s.setCached t i).dropped = s.dropped := rfl
@[simp] theorem State.setCached_save (s : State) (t : Nat) (i : Option SlotId) : (s.setCached t i).save = s.save := rfl
@[simp] theorem State.setCached_flash (s : State) (t : Nat) (i : Option SlotId) : (s.setCached t i).flash = s.flash := rfl
@[simp] theorem State.setCached_timers (s : State) (t : Nat) (i : Option SlotId) : (s.setCached t i).timers = s.timers := rfl
@[simp] theorem State.setCached_imageTimer (s : State) (t : Nat) (i : Option SlotId) : (s.setCached t i).imageTimer = s.imageTimer := rfl
@[simp] theorem State.setCached_portTable (s : State) (t : Nat) (i : Option SlotId) : (s.setCached t i).portTable = s.portTable := rfl
@[simp] theorem State.setCached_ports (s : State) (t : Nat) (i : Option SlotId) : (s.setCached t i).ports = s.ports := rfl
@[simp] theorem State.setCached_serviceRates (s : State) (t : Nat) (i : Option SlotId) : (s.setCached t i).serviceRates = s.serviceRates := rfl
@[simp] theorem State.setCached_taxRates (s : State) (t : Nat) (i : Option SlotId) : (s.setCached t i).taxRates = s.taxRates := rfl
@[simp] theorem State.setCached_items (s : State) (t : Nat) (i : Option SlotId) : (s.setCached t i).items = s.items := rfl
@[simp] theorem State.setCached_availList (s : State) (t : Nat) (i : Option SlotId) : (s.setCached t i).availList = s.availList := rfl
@[simp] theorem State.setCached_freeList (s : State) (t : Nat) (i : Option SlotId) : (s.setCached t i).freeList = s.freeList := rfl
@[simp] theorem State.setCached_closedList (s : State) (t : Nat) (i : Option SlotId) : (s.setCached t i).closedList = s.closedList := rfl
@[simp] theorem State.setCached_slots (s : State) (t : Nat) (i : Option SlotId) : (s.setCached t i).slots = s.slots := rfl
@[simp] theorem State.setCached_recency (s : State) (t : Nat) (i : Option SlotId) : (s.setCached t i).recency = s.recency := rfl
@[simp] theorem State.setCached_tabMemory (s : State) (t : Nat) (i : Option SlotId) : (s.setCached t i).tabMemory = s.tabMemory := rfl
@[simp] theorem State.setCached_memQueue (s : State) (t : Nat) (i : Option SlotId) : (s.setCached t i).memQueue = s.memQueue := rfl
@[simp] theorem State.setCached_auditQueued (s : State) (t : Nat) (i : Option SlotId) : (s.setCached t i).auditQueued = s.auditQueued := rfl
@[simp] theorem State.setCached_memRunning (s : State) (t : Nat) (i : Option SlotId) : (s.setCached t i).memRunning = s.memRunning := rfl
@[simp] theorem State.setCached_flush (s : State) (t : Nat) (i : Option SlotId) : (s.setCached t i).flush = s.flush := rfl
@[simp] theorem State.setCached_audit (s : State) (t : Nat) (i : Option SlotId) : (s.setCached t i).audit = s.audit := rfl
@[simp] theorem State.setCached_holds (s : State) (t : Nat) (i : Option SlotId) : (s.setCached t i).holds = s.holds := rfl
@[simp] theorem State.setCached_stations (s : State) (t : Nat) (i : Option SlotId) : (s.setCached t i).stations = s.stations := rfl
@[simp] theorem State.setCached_overflow (s : State) (t : Nat) (i : Option SlotId) : (s.setCached t i).overflow = s.overflow := rfl
@[simp] theorem State.setCached_ticketCounter (s : State) (t : Nat) (i : Option SlotId) : (s.setCached t i).ticketCounter = s.ticketCounter := rfl
@[simp] theorem State.setCached_check (s : State) (t : Nat) (i : Option SlotId) : (s.setCached t i).check = s.check := rfl
@[simp] theorem State.setCached_engineWait (s : State) (t : Nat) (i : Option SlotId) : (s.setCached t i).engineWait = s.engineWait := rfl

/-! ### raiseLive -/

@[simp] theorem State.raiseLive_pending (s : State) (t k : Nat) : (s.raiseLive t k).pending = s.pending := rfl
@[simp] theorem State.raiseLive_now (s : State) (t k : Nat) : (s.raiseLive t k).now = s.now := rfl
@[simp] theorem State.raiseLive_phase (s : State) (t k : Nat) : (s.raiseLive t k).phase = s.phase := rfl
@[simp] theorem State.raiseLive_walkAt (s : State) (t k : Nat) : (s.raiseLive t k).walkAt = s.walkAt := rfl
@[simp] theorem State.raiseLive_startUp (s : State) (t k : Nat) : (s.raiseLive t k).startUp = s.startUp := rfl
@[simp] theorem State.raiseLive_notices (s : State) (t k : Nat) : (s.raiseLive t k).notices = s.notices := rfl
@[simp] theorem State.raiseLive_mask (s : State) (t k : Nat) : (s.raiseLive t k).mask = s.mask := rfl
@[simp] theorem State.raiseLive_dropped (s : State) (t k : Nat) : (s.raiseLive t k).dropped = s.dropped := rfl
@[simp] theorem State.raiseLive_save (s : State) (t k : Nat) : (s.raiseLive t k).save = s.save := rfl
@[simp] theorem State.raiseLive_flash (s : State) (t k : Nat) : (s.raiseLive t k).flash = s.flash := rfl
@[simp] theorem State.raiseLive_timers (s : State) (t k : Nat) : (s.raiseLive t k).timers = s.timers := rfl
@[simp] theorem State.raiseLive_imageTimer (s : State) (t k : Nat) : (s.raiseLive t k).imageTimer = s.imageTimer := rfl
@[simp] theorem State.raiseLive_portTable (s : State) (t k : Nat) : (s.raiseLive t k).portTable = s.portTable := rfl
@[simp] theorem State.raiseLive_ports (s : State) (t k : Nat) : (s.raiseLive t k).ports = s.ports := rfl
@[simp] theorem State.raiseLive_serviceRates (s : State) (t k : Nat) : (s.raiseLive t k).serviceRates = s.serviceRates := rfl
@[simp] theorem State.raiseLive_taxRates (s : State) (t k : Nat) : (s.raiseLive t k).taxRates = s.taxRates := rfl
@[simp] theorem State.raiseLive_items (s : State) (t k : Nat) : (s.raiseLive t k).items = s.items := rfl
@[simp] theorem State.raiseLive_availList (s : State) (t k : Nat) : (s.raiseLive t k).availList = s.availList := rfl
@[simp] theorem State.raiseLive_freeList (s : State) (t k : Nat) : (s.raiseLive t k).freeList = s.freeList := rfl
@[simp] theorem State.raiseLive_closedList (s : State) (t k : Nat) : (s.raiseLive t k).closedList = s.closedList := rfl
@[simp] theorem State.raiseLive_slots (s : State) (t k : Nat) : (s.raiseLive t k).slots = s.slots := rfl
@[simp] theorem State.raiseLive_recency (s : State) (t k : Nat) : (s.raiseLive t k).recency = s.recency := rfl
@[simp] theorem State.raiseLive_tabMemory (s : State) (t k : Nat) : (s.raiseLive t k).tabMemory = s.tabMemory := rfl
@[simp] theorem State.raiseLive_memQueue (s : State) (t k : Nat) : (s.raiseLive t k).memQueue = s.memQueue := rfl
@[simp] theorem State.raiseLive_auditQueued (s : State) (t k : Nat) : (s.raiseLive t k).auditQueued = s.auditQueued := rfl
@[simp] theorem State.raiseLive_memRunning (s : State) (t k : Nat) : (s.raiseLive t k).memRunning = s.memRunning := rfl
@[simp] theorem State.raiseLive_flush (s : State) (t k : Nat) : (s.raiseLive t k).flush = s.flush := rfl
@[simp] theorem State.raiseLive_audit (s : State) (t k : Nat) : (s.raiseLive t k).audit = s.audit := rfl
@[simp] theorem State.raiseLive_holds (s : State) (t k : Nat) : (s.raiseLive t k).holds = s.holds := rfl
@[simp] theorem State.raiseLive_stations (s : State) (t k : Nat) : (s.raiseLive t k).stations = s.stations := rfl
@[simp] theorem State.raiseLive_overflow (s : State) (t k : Nat) : (s.raiseLive t k).overflow = s.overflow := rfl
@[simp] theorem State.raiseLive_ticketCounter (s : State) (t k : Nat) : (s.raiseLive t k).ticketCounter = s.ticketCounter := rfl
@[simp] theorem State.raiseLive_check (s : State) (t k : Nat) : (s.raiseLive t k).check = s.check := rfl
@[simp] theorem State.raiseLive_engineWait (s : State) (t k : Nat) : (s.raiseLive t k).engineWait = s.engineWait := rfl

/-! ### lowerLive -/

@[simp] theorem State.lowerLive_pending (s : State) (t : Nat) : (s.lowerLive t).pending = s.pending := rfl
@[simp] theorem State.lowerLive_now (s : State) (t : Nat) : (s.lowerLive t).now = s.now := rfl
@[simp] theorem State.lowerLive_phase (s : State) (t : Nat) : (s.lowerLive t).phase = s.phase := rfl
@[simp] theorem State.lowerLive_walkAt (s : State) (t : Nat) : (s.lowerLive t).walkAt = s.walkAt := rfl
@[simp] theorem State.lowerLive_startUp (s : State) (t : Nat) : (s.lowerLive t).startUp = s.startUp := rfl
@[simp] theorem State.lowerLive_notices (s : State) (t : Nat) : (s.lowerLive t).notices = s.notices := rfl
@[simp] theorem State.lowerLive_mask (s : State) (t : Nat) : (s.lowerLive t).mask = s.mask := rfl
@[simp] theorem State.lowerLive_dropped (s : State) (t : Nat) : (s.lowerLive t).dropped = s.dropped := rfl
@[simp] theorem State.lowerLive_save (s : State) (t : Nat) : (s.lowerLive t).save = s.save := rfl
@[simp] theorem State.lowerLive_flash (s : State) (t : Nat) : (s.lowerLive t).flash = s.flash := rfl
@[simp] theorem State.lowerLive_timers (s : State) (t : Nat) : (s.lowerLive t).timers = s.timers := rfl
@[simp] theorem State.lowerLive_imageTimer (s : State) (t : Nat) : (s.lowerLive t).imageTimer = s.imageTimer := rfl
@[simp] theorem State.lowerLive_portTable (s : State) (t : Nat) : (s.lowerLive t).portTable = s.portTable := rfl
@[simp] theorem State.lowerLive_ports (s : State) (t : Nat) : (s.lowerLive t).ports = s.ports := rfl
@[simp] theorem State.lowerLive_serviceRates (s : State) (t : Nat) : (s.lowerLive t).serviceRates = s.serviceRates := rfl
@[simp] theorem State.lowerLive_taxRates (s : State) (t : Nat) : (s.lowerLive t).taxRates = s.taxRates := rfl
@[simp] theorem State.lowerLive_items (s : State) (t : Nat) : (s.lowerLive t).items = s.items := rfl
@[simp] theorem State.lowerLive_availList (s : State) (t : Nat) : (s.lowerLive t).availList = s.availList := rfl
@[simp] theorem State.lowerLive_freeList (s : State) (t : Nat) : (s.lowerLive t).freeList = s.freeList := rfl
@[simp] theorem State.lowerLive_closedList (s : State) (t : Nat) : (s.lowerLive t).closedList = s.closedList := rfl
@[simp] theorem State.lowerLive_slots (s : State) (t : Nat) : (s.lowerLive t).slots = s.slots := rfl
@[simp] theorem State.lowerLive_recency (s : State) (t : Nat) : (s.lowerLive t).recency = s.recency := rfl
@[simp] theorem State.lowerLive_tabMemory (s : State) (t : Nat) : (s.lowerLive t).tabMemory = s.tabMemory := rfl
@[simp] theorem State.lowerLive_memQueue (s : State) (t : Nat) : (s.lowerLive t).memQueue = s.memQueue := rfl
@[simp] theorem State.lowerLive_auditQueued (s : State) (t : Nat) : (s.lowerLive t).auditQueued = s.auditQueued := rfl
@[simp] theorem State.lowerLive_memRunning (s : State) (t : Nat) : (s.lowerLive t).memRunning = s.memRunning := rfl
@[simp] theorem State.lowerLive_flush (s : State) (t : Nat) : (s.lowerLive t).flush = s.flush := rfl
@[simp] theorem State.lowerLive_audit (s : State) (t : Nat) : (s.lowerLive t).audit = s.audit := rfl
@[simp] theorem State.lowerLive_holds (s : State) (t : Nat) : (s.lowerLive t).holds = s.holds := rfl
@[simp] theorem State.lowerLive_stations (s : State) (t : Nat) : (s.lowerLive t).stations = s.stations := rfl
@[simp] theorem State.lowerLive_overflow (s : State) (t : Nat) : (s.lowerLive t).overflow = s.overflow := rfl
@[simp] theorem State.lowerLive_ticketCounter (s : State) (t : Nat) : (s.lowerLive t).ticketCounter = s.ticketCounter := rfl
@[simp] theorem State.lowerLive_check (s : State) (t : Nat) : (s.lowerLive t).check = s.check := rfl
@[simp] theorem State.lowerLive_engineWait (s : State) (t : Nat) : (s.lowerLive t).engineWait = s.engineWait := rfl

/-! ### store -/

@[simp] theorem State.store_pending (s : State) (t : Nat) (cell : StoredRecord) : (s.store t cell).pending = s.pending := rfl
@[simp] theorem State.store_now (s : State) (t : Nat) (cell : StoredRecord) : (s.store t cell).now = s.now := rfl
@[simp] theorem State.store_phase (s : State) (t : Nat) (cell : StoredRecord) : (s.store t cell).phase = s.phase := rfl
@[simp] theorem State.store_walkAt (s : State) (t : Nat) (cell : StoredRecord) : (s.store t cell).walkAt = s.walkAt := rfl
@[simp] theorem State.store_startUp (s : State) (t : Nat) (cell : StoredRecord) : (s.store t cell).startUp = s.startUp := rfl
@[simp] theorem State.store_notices (s : State) (t : Nat) (cell : StoredRecord) : (s.store t cell).notices = s.notices := rfl
@[simp] theorem State.store_mask (s : State) (t : Nat) (cell : StoredRecord) : (s.store t cell).mask = s.mask := rfl
@[simp] theorem State.store_dropped (s : State) (t : Nat) (cell : StoredRecord) : (s.store t cell).dropped = s.dropped := rfl
@[simp] theorem State.store_save (s : State) (t : Nat) (cell : StoredRecord) : (s.store t cell).save = s.save := rfl
@[simp] theorem State.store_flash (s : State) (t : Nat) (cell : StoredRecord) : (s.store t cell).flash = s.flash := rfl
@[simp] theorem State.store_timers (s : State) (t : Nat) (cell : StoredRecord) : (s.store t cell).timers = s.timers := rfl
@[simp] theorem State.store_imageTimer (s : State) (t : Nat) (cell : StoredRecord) : (s.store t cell).imageTimer = s.imageTimer := rfl
@[simp] theorem State.store_portTable (s : State) (t : Nat) (cell : StoredRecord) : (s.store t cell).portTable = s.portTable := rfl
@[simp] theorem State.store_ports (s : State) (t : Nat) (cell : StoredRecord) : (s.store t cell).ports = s.ports := rfl
@[simp] theorem State.store_serviceRates (s : State) (t : Nat) (cell : StoredRecord) : (s.store t cell).serviceRates = s.serviceRates := rfl
@[simp] theorem State.store_taxRates (s : State) (t : Nat) (cell : StoredRecord) : (s.store t cell).taxRates = s.taxRates := rfl
@[simp] theorem State.store_items (s : State) (t : Nat) (cell : StoredRecord) : (s.store t cell).items = s.items := rfl
@[simp] theorem State.store_availList (s : State) (t : Nat) (cell : StoredRecord) : (s.store t cell).availList = s.availList := rfl
@[simp] theorem State.store_directory (s : State) (t : Nat) (cell : StoredRecord) : (s.store t cell).directory = s.directory := rfl
@[simp] theorem State.store_freeList (s : State) (t : Nat) (cell : StoredRecord) : (s.store t cell).freeList = s.freeList := rfl
@[simp] theorem State.store_closedList (s : State) (t : Nat) (cell : StoredRecord) : (s.store t cell).closedList = s.closedList := rfl
@[simp] theorem State.store_slots (s : State) (t : Nat) (cell : StoredRecord) : (s.store t cell).slots = s.slots := rfl
@[simp] theorem State.store_recency (s : State) (t : Nat) (cell : StoredRecord) : (s.store t cell).recency = s.recency := rfl
@[simp] theorem State.store_memQueue (s : State) (t : Nat) (cell : StoredRecord) : (s.store t cell).memQueue = s.memQueue := rfl
@[simp] theorem State.store_auditQueued (s : State) (t : Nat) (cell : StoredRecord) : (s.store t cell).auditQueued = s.auditQueued := rfl
@[simp] theorem State.store_memRunning (s : State) (t : Nat) (cell : StoredRecord) : (s.store t cell).memRunning = s.memRunning := rfl
@[simp] theorem State.store_flush (s : State) (t : Nat) (cell : StoredRecord) : (s.store t cell).flush = s.flush := rfl
@[simp] theorem State.store_audit (s : State) (t : Nat) (cell : StoredRecord) : (s.store t cell).audit = s.audit := rfl
@[simp] theorem State.store_holds (s : State) (t : Nat) (cell : StoredRecord) : (s.store t cell).holds = s.holds := rfl
@[simp] theorem State.store_stations (s : State) (t : Nat) (cell : StoredRecord) : (s.store t cell).stations = s.stations := rfl
@[simp] theorem State.store_overflow (s : State) (t : Nat) (cell : StoredRecord) : (s.store t cell).overflow = s.overflow := rfl
@[simp] theorem State.store_ticketCounter (s : State) (t : Nat) (cell : StoredRecord) : (s.store t cell).ticketCounter = s.ticketCounter := rfl
@[simp] theorem State.store_check (s : State) (t : Nat) (cell : StoredRecord) : (s.store t cell).check = s.check := rfl
@[simp] theorem State.store_engineWait (s : State) (t : Nat) (cell : StoredRecord) : (s.store t cell).engineWait = s.engineWait := rfl

/-! ### enqueueOp -/

@[simp] theorem State.enqueueOp_pending (s : State) (op : MemOp) : (s.enqueueOp op).pending = s.pending := rfl
@[simp] theorem State.enqueueOp_now (s : State) (op : MemOp) : (s.enqueueOp op).now = s.now := rfl
@[simp] theorem State.enqueueOp_phase (s : State) (op : MemOp) : (s.enqueueOp op).phase = s.phase := rfl
@[simp] theorem State.enqueueOp_walkAt (s : State) (op : MemOp) : (s.enqueueOp op).walkAt = s.walkAt := rfl
@[simp] theorem State.enqueueOp_startUp (s : State) (op : MemOp) : (s.enqueueOp op).startUp = s.startUp := rfl
@[simp] theorem State.enqueueOp_notices (s : State) (op : MemOp) : (s.enqueueOp op).notices = s.notices := rfl
@[simp] theorem State.enqueueOp_mask (s : State) (op : MemOp) : (s.enqueueOp op).mask = s.mask := rfl
@[simp] theorem State.enqueueOp_dropped (s : State) (op : MemOp) : (s.enqueueOp op).dropped = s.dropped := rfl
@[simp] theorem State.enqueueOp_save (s : State) (op : MemOp) : (s.enqueueOp op).save = s.save := rfl
@[simp] theorem State.enqueueOp_flash (s : State) (op : MemOp) : (s.enqueueOp op).flash = s.flash := rfl
@[simp] theorem State.enqueueOp_timers (s : State) (op : MemOp) : (s.enqueueOp op).timers = s.timers := rfl
@[simp] theorem State.enqueueOp_imageTimer (s : State) (op : MemOp) : (s.enqueueOp op).imageTimer = s.imageTimer := rfl
@[simp] theorem State.enqueueOp_portTable (s : State) (op : MemOp) : (s.enqueueOp op).portTable = s.portTable := rfl
@[simp] theorem State.enqueueOp_ports (s : State) (op : MemOp) : (s.enqueueOp op).ports = s.ports := rfl
@[simp] theorem State.enqueueOp_serviceRates (s : State) (op : MemOp) : (s.enqueueOp op).serviceRates = s.serviceRates := rfl
@[simp] theorem State.enqueueOp_taxRates (s : State) (op : MemOp) : (s.enqueueOp op).taxRates = s.taxRates := rfl
@[simp] theorem State.enqueueOp_items (s : State) (op : MemOp) : (s.enqueueOp op).items = s.items := rfl
@[simp] theorem State.enqueueOp_availList (s : State) (op : MemOp) : (s.enqueueOp op).availList = s.availList := rfl
@[simp] theorem State.enqueueOp_directory (s : State) (op : MemOp) : (s.enqueueOp op).directory = s.directory := rfl
@[simp] theorem State.enqueueOp_freeList (s : State) (op : MemOp) : (s.enqueueOp op).freeList = s.freeList := rfl
@[simp] theorem State.enqueueOp_closedList (s : State) (op : MemOp) : (s.enqueueOp op).closedList = s.closedList := rfl
@[simp] theorem State.enqueueOp_slots (s : State) (op : MemOp) : (s.enqueueOp op).slots = s.slots := rfl
@[simp] theorem State.enqueueOp_recency (s : State) (op : MemOp) : (s.enqueueOp op).recency = s.recency := rfl
@[simp] theorem State.enqueueOp_tabMemory (s : State) (op : MemOp) : (s.enqueueOp op).tabMemory = s.tabMemory := rfl
@[simp] theorem State.enqueueOp_auditQueued (s : State) (op : MemOp) : (s.enqueueOp op).auditQueued = s.auditQueued := rfl
@[simp] theorem State.enqueueOp_memRunning (s : State) (op : MemOp) : (s.enqueueOp op).memRunning = s.memRunning := rfl
@[simp] theorem State.enqueueOp_flush (s : State) (op : MemOp) : (s.enqueueOp op).flush = s.flush := rfl
@[simp] theorem State.enqueueOp_audit (s : State) (op : MemOp) : (s.enqueueOp op).audit = s.audit := rfl
@[simp] theorem State.enqueueOp_holds (s : State) (op : MemOp) : (s.enqueueOp op).holds = s.holds := rfl
@[simp] theorem State.enqueueOp_stations (s : State) (op : MemOp) : (s.enqueueOp op).stations = s.stations := rfl
@[simp] theorem State.enqueueOp_overflow (s : State) (op : MemOp) : (s.enqueueOp op).overflow = s.overflow := rfl
@[simp] theorem State.enqueueOp_ticketCounter (s : State) (op : MemOp) : (s.enqueueOp op).ticketCounter = s.ticketCounter := rfl
@[simp] theorem State.enqueueOp_check (s : State) (op : MemOp) : (s.enqueueOp op).check = s.check := rfl
@[simp] theorem State.enqueueOp_engineWait (s : State) (op : MemOp) : (s.enqueueOp op).engineWait = s.engineWait := rfl

/-! ### popWaiter -/

@[simp] theorem State.popWaiter_pending (s : State) (i : SlotId) : (s.popWaiter i).pending = s.pending := rfl
@[simp] theorem State.popWaiter_now (s : State) (i : SlotId) : (s.popWaiter i).now = s.now := rfl
@[simp] theorem State.popWaiter_phase (s : State) (i : SlotId) : (s.popWaiter i).phase = s.phase := rfl
@[simp] theorem State.popWaiter_walkAt (s : State) (i : SlotId) : (s.popWaiter i).walkAt = s.walkAt := rfl
@[simp] theorem State.popWaiter_startUp (s : State) (i : SlotId) : (s.popWaiter i).startUp = s.startUp := rfl
@[simp] theorem State.popWaiter_notices (s : State) (i : SlotId) : (s.popWaiter i).notices = s.notices := rfl
@[simp] theorem State.popWaiter_mask (s : State) (i : SlotId) : (s.popWaiter i).mask = s.mask := rfl
@[simp] theorem State.popWaiter_dropped (s : State) (i : SlotId) : (s.popWaiter i).dropped = s.dropped := rfl
@[simp] theorem State.popWaiter_save (s : State) (i : SlotId) : (s.popWaiter i).save = s.save := rfl
@[simp] theorem State.popWaiter_flash (s : State) (i : SlotId) : (s.popWaiter i).flash = s.flash := rfl
@[simp] theorem State.popWaiter_timers (s : State) (i : SlotId) : (s.popWaiter i).timers = s.timers := rfl
@[simp] theorem State.popWaiter_imageTimer (s : State) (i : SlotId) : (s.popWaiter i).imageTimer = s.imageTimer := rfl
@[simp] theorem State.popWaiter_portTable (s : State) (i : SlotId) : (s.popWaiter i).portTable = s.portTable := rfl
@[simp] theorem State.popWaiter_ports (s : State) (i : SlotId) : (s.popWaiter i).ports = s.ports := rfl
@[simp] theorem State.popWaiter_serviceRates (s : State) (i : SlotId) : (s.popWaiter i).serviceRates = s.serviceRates := rfl
@[simp] theorem State.popWaiter_taxRates (s : State) (i : SlotId) : (s.popWaiter i).taxRates = s.taxRates := rfl
@[simp] theorem State.popWaiter_items (s : State) (i : SlotId) : (s.popWaiter i).items = s.items := rfl
@[simp] theorem State.popWaiter_availList (s : State) (i : SlotId) : (s.popWaiter i).availList = s.availList := rfl
@[simp] theorem State.popWaiter_directory (s : State) (i : SlotId) : (s.popWaiter i).directory = s.directory := rfl
@[simp] theorem State.popWaiter_freeList (s : State) (i : SlotId) : (s.popWaiter i).freeList = s.freeList := rfl
@[simp] theorem State.popWaiter_closedList (s : State) (i : SlotId) : (s.popWaiter i).closedList = s.closedList := rfl
@[simp] theorem State.popWaiter_recency (s : State) (i : SlotId) : (s.popWaiter i).recency = s.recency := rfl
@[simp] theorem State.popWaiter_tabMemory (s : State) (i : SlotId) : (s.popWaiter i).tabMemory = s.tabMemory := rfl
@[simp] theorem State.popWaiter_memQueue (s : State) (i : SlotId) : (s.popWaiter i).memQueue = s.memQueue := rfl
@[simp] theorem State.popWaiter_auditQueued (s : State) (i : SlotId) : (s.popWaiter i).auditQueued = s.auditQueued := rfl
@[simp] theorem State.popWaiter_memRunning (s : State) (i : SlotId) : (s.popWaiter i).memRunning = s.memRunning := rfl
@[simp] theorem State.popWaiter_flush (s : State) (i : SlotId) : (s.popWaiter i).flush = s.flush := rfl
@[simp] theorem State.popWaiter_audit (s : State) (i : SlotId) : (s.popWaiter i).audit = s.audit := rfl
@[simp] theorem State.popWaiter_holds (s : State) (i : SlotId) : (s.popWaiter i).holds = s.holds := rfl
@[simp] theorem State.popWaiter_stations (s : State) (i : SlotId) : (s.popWaiter i).stations = s.stations := rfl
@[simp] theorem State.popWaiter_overflow (s : State) (i : SlotId) : (s.popWaiter i).overflow = s.overflow := rfl
@[simp] theorem State.popWaiter_ticketCounter (s : State) (i : SlotId) : (s.popWaiter i).ticketCounter = s.ticketCounter := rfl
@[simp] theorem State.popWaiter_check (s : State) (i : SlotId) : (s.popWaiter i).check = s.check := rfl
@[simp] theorem State.popWaiter_engineWait (s : State) (i : SlotId) : (s.popWaiter i).engineWait = s.engineWait := rfl

/-! ### freeController -/

@[simp] theorem State.freeController_pending (s : State) : (s.freeController).pending = s.pending := rfl
@[simp] theorem State.freeController_now (s : State) : (s.freeController).now = s.now := rfl
@[simp] theorem State.freeController_phase (s : State) : (s.freeController).phase = s.phase := rfl
@[simp] theorem State.freeController_walkAt (s : State) : (s.freeController).walkAt = s.walkAt := rfl
@[simp] theorem State.freeController_startUp (s : State) : (s.freeController).startUp = s.startUp := rfl
@[simp] theorem State.freeController_notices (s : State) : (s.freeController).notices = s.notices := rfl
@[simp] theorem State.freeController_mask (s : State) : (s.freeController).mask = s.mask := rfl
@[simp] theorem State.freeController_dropped (s : State) : (s.freeController).dropped = s.dropped := rfl
@[simp] theorem State.freeController_save (s : State) : (s.freeController).save = s.save := rfl
@[simp] theorem State.freeController_flash (s : State) : (s.freeController).flash = s.flash := rfl
@[simp] theorem State.freeController_timers (s : State) : (s.freeController).timers = s.timers := rfl
@[simp] theorem State.freeController_imageTimer (s : State) : (s.freeController).imageTimer = s.imageTimer := rfl
@[simp] theorem State.freeController_portTable (s : State) : (s.freeController).portTable = s.portTable := rfl
@[simp] theorem State.freeController_ports (s : State) : (s.freeController).ports = s.ports := rfl
@[simp] theorem State.freeController_serviceRates (s : State) : (s.freeController).serviceRates = s.serviceRates := rfl
@[simp] theorem State.freeController_taxRates (s : State) : (s.freeController).taxRates = s.taxRates := rfl
@[simp] theorem State.freeController_items (s : State) : (s.freeController).items = s.items := rfl
@[simp] theorem State.freeController_availList (s : State) : (s.freeController).availList = s.availList := rfl
@[simp] theorem State.freeController_directory (s : State) : (s.freeController).directory = s.directory := rfl
@[simp] theorem State.freeController_freeList (s : State) : (s.freeController).freeList = s.freeList := rfl
@[simp] theorem State.freeController_closedList (s : State) : (s.freeController).closedList = s.closedList := rfl
@[simp] theorem State.freeController_slots (s : State) : (s.freeController).slots = s.slots := rfl
@[simp] theorem State.freeController_recency (s : State) : (s.freeController).recency = s.recency := rfl
@[simp] theorem State.freeController_tabMemory (s : State) : (s.freeController).tabMemory = s.tabMemory := rfl
@[simp] theorem State.freeController_memQueue (s : State) : (s.freeController).memQueue = s.memQueue := rfl
@[simp] theorem State.freeController_auditQueued (s : State) : (s.freeController).auditQueued = s.auditQueued := rfl
@[simp] theorem State.freeController_flush (s : State) : (s.freeController).flush = s.flush := rfl
@[simp] theorem State.freeController_audit (s : State) : (s.freeController).audit = s.audit := rfl
@[simp] theorem State.freeController_holds (s : State) : (s.freeController).holds = s.holds := rfl
@[simp] theorem State.freeController_stations (s : State) : (s.freeController).stations = s.stations := rfl
@[simp] theorem State.freeController_overflow (s : State) : (s.freeController).overflow = s.overflow := rfl
@[simp] theorem State.freeController_ticketCounter (s : State) : (s.freeController).ticketCounter = s.ticketCounter := rfl
@[simp] theorem State.freeController_check (s : State) : (s.freeController).check = s.check := rfl
@[simp] theorem State.freeController_engineWait (s : State) : (s.freeController).engineWait = s.engineWait := rfl

/-! ### reach -/

@[simp] theorem State.reach_pending (s : State) (m : Nat) : (s.reach m).pending = s.pending := rfl
@[simp] theorem State.reach_phase (s : State) (m : Nat) : (s.reach m).phase = s.phase := rfl
@[simp] theorem State.reach_walkAt (s : State) (m : Nat) : (s.reach m).walkAt = s.walkAt := rfl
@[simp] theorem State.reach_startUp (s : State) (m : Nat) : (s.reach m).startUp = s.startUp := rfl
@[simp] theorem State.reach_notices (s : State) (m : Nat) : (s.reach m).notices = s.notices := rfl
@[simp] theorem State.reach_mask (s : State) (m : Nat) : (s.reach m).mask = s.mask := rfl
@[simp] theorem State.reach_dropped (s : State) (m : Nat) : (s.reach m).dropped = s.dropped := rfl
@[simp] theorem State.reach_save (s : State) (m : Nat) : (s.reach m).save = s.save := rfl
@[simp] theorem State.reach_flash (s : State) (m : Nat) : (s.reach m).flash = s.flash := rfl
@[simp] theorem State.reach_timers (s : State) (m : Nat) : (s.reach m).timers = s.timers := rfl
@[simp] theorem State.reach_imageTimer (s : State) (m : Nat) : (s.reach m).imageTimer = s.imageTimer := rfl
@[simp] theorem State.reach_portTable (s : State) (m : Nat) : (s.reach m).portTable = s.portTable := rfl
@[simp] theorem State.reach_ports (s : State) (m : Nat) : (s.reach m).ports = s.ports := rfl
@[simp] theorem State.reach_serviceRates (s : State) (m : Nat) : (s.reach m).serviceRates = s.serviceRates := rfl
@[simp] theorem State.reach_taxRates (s : State) (m : Nat) : (s.reach m).taxRates = s.taxRates := rfl
@[simp] theorem State.reach_items (s : State) (m : Nat) : (s.reach m).items = s.items := rfl
@[simp] theorem State.reach_availList (s : State) (m : Nat) : (s.reach m).availList = s.availList := rfl
@[simp] theorem State.reach_directory (s : State) (m : Nat) : (s.reach m).directory = s.directory := rfl
@[simp] theorem State.reach_freeList (s : State) (m : Nat) : (s.reach m).freeList = s.freeList := rfl
@[simp] theorem State.reach_closedList (s : State) (m : Nat) : (s.reach m).closedList = s.closedList := rfl
@[simp] theorem State.reach_slots (s : State) (m : Nat) : (s.reach m).slots = s.slots := rfl
@[simp] theorem State.reach_recency (s : State) (m : Nat) : (s.reach m).recency = s.recency := rfl
@[simp] theorem State.reach_tabMemory (s : State) (m : Nat) : (s.reach m).tabMemory = s.tabMemory := rfl
@[simp] theorem State.reach_memQueue (s : State) (m : Nat) : (s.reach m).memQueue = s.memQueue := rfl
@[simp] theorem State.reach_auditQueued (s : State) (m : Nat) : (s.reach m).auditQueued = s.auditQueued := rfl
@[simp] theorem State.reach_memRunning (s : State) (m : Nat) : (s.reach m).memRunning = s.memRunning := rfl
@[simp] theorem State.reach_flush (s : State) (m : Nat) : (s.reach m).flush = s.flush := rfl
@[simp] theorem State.reach_audit (s : State) (m : Nat) : (s.reach m).audit = s.audit := rfl
@[simp] theorem State.reach_holds (s : State) (m : Nat) : (s.reach m).holds = s.holds := rfl
@[simp] theorem State.reach_stations (s : State) (m : Nat) : (s.reach m).stations = s.stations := rfl
@[simp] theorem State.reach_overflow (s : State) (m : Nat) : (s.reach m).overflow = s.overflow := rfl
@[simp] theorem State.reach_ticketCounter (s : State) (m : Nat) : (s.reach m).ticketCounter = s.ticketCounter := rfl
@[simp] theorem State.reach_check (s : State) (m : Nat) : (s.reach m).check = s.check := rfl
@[simp] theorem State.reach_engineWait (s : State) (m : Nat) : (s.reach m).engineWait = s.engineWait := rfl

/-! ### clearSlot -/

@[simp] theorem State.clearSlot_pending (s : State) (i : SlotId) : (s.clearSlot i).pending = s.pending := rfl
@[simp] theorem State.clearSlot_now (s : State) (i : SlotId) : (s.clearSlot i).now = s.now := rfl
@[simp] theorem State.clearSlot_phase (s : State) (i : SlotId) : (s.clearSlot i).phase = s.phase := rfl
@[simp] theorem State.clearSlot_walkAt (s : State) (i : SlotId) : (s.clearSlot i).walkAt = s.walkAt := rfl
@[simp] theorem State.clearSlot_startUp (s : State) (i : SlotId) : (s.clearSlot i).startUp = s.startUp := rfl
@[simp] theorem State.clearSlot_notices (s : State) (i : SlotId) : (s.clearSlot i).notices = s.notices := rfl
@[simp] theorem State.clearSlot_mask (s : State) (i : SlotId) : (s.clearSlot i).mask = s.mask := rfl
@[simp] theorem State.clearSlot_dropped (s : State) (i : SlotId) : (s.clearSlot i).dropped = s.dropped := rfl
@[simp] theorem State.clearSlot_save (s : State) (i : SlotId) : (s.clearSlot i).save = s.save := rfl
@[simp] theorem State.clearSlot_flash (s : State) (i : SlotId) : (s.clearSlot i).flash = s.flash := rfl
@[simp] theorem State.clearSlot_timers (s : State) (i : SlotId) : (s.clearSlot i).timers = s.timers := rfl
@[simp] theorem State.clearSlot_imageTimer (s : State) (i : SlotId) : (s.clearSlot i).imageTimer = s.imageTimer := rfl
@[simp] theorem State.clearSlot_portTable (s : State) (i : SlotId) : (s.clearSlot i).portTable = s.portTable := rfl
@[simp] theorem State.clearSlot_ports (s : State) (i : SlotId) : (s.clearSlot i).ports = s.ports := rfl
@[simp] theorem State.clearSlot_serviceRates (s : State) (i : SlotId) : (s.clearSlot i).serviceRates = s.serviceRates := rfl
@[simp] theorem State.clearSlot_taxRates (s : State) (i : SlotId) : (s.clearSlot i).taxRates = s.taxRates := rfl
@[simp] theorem State.clearSlot_items (s : State) (i : SlotId) : (s.clearSlot i).items = s.items := rfl
@[simp] theorem State.clearSlot_availList (s : State) (i : SlotId) : (s.clearSlot i).availList = s.availList := rfl
@[simp] theorem State.clearSlot_directory (s : State) (i : SlotId) : (s.clearSlot i).directory = s.directory := rfl
@[simp] theorem State.clearSlot_freeList (s : State) (i : SlotId) : (s.clearSlot i).freeList = s.freeList := rfl
@[simp] theorem State.clearSlot_closedList (s : State) (i : SlotId) : (s.clearSlot i).closedList = s.closedList := rfl
@[simp] theorem State.clearSlot_recency (s : State) (i : SlotId) : (s.clearSlot i).recency = s.recency := rfl
@[simp] theorem State.clearSlot_tabMemory (s : State) (i : SlotId) : (s.clearSlot i).tabMemory = s.tabMemory := rfl
@[simp] theorem State.clearSlot_memQueue (s : State) (i : SlotId) : (s.clearSlot i).memQueue = s.memQueue := rfl
@[simp] theorem State.clearSlot_auditQueued (s : State) (i : SlotId) : (s.clearSlot i).auditQueued = s.auditQueued := rfl
@[simp] theorem State.clearSlot_memRunning (s : State) (i : SlotId) : (s.clearSlot i).memRunning = s.memRunning := rfl
@[simp] theorem State.clearSlot_flush (s : State) (i : SlotId) : (s.clearSlot i).flush = s.flush := rfl
@[simp] theorem State.clearSlot_audit (s : State) (i : SlotId) : (s.clearSlot i).audit = s.audit := rfl
@[simp] theorem State.clearSlot_holds (s : State) (i : SlotId) : (s.clearSlot i).holds = s.holds := rfl
@[simp] theorem State.clearSlot_stations (s : State) (i : SlotId) : (s.clearSlot i).stations = s.stations := rfl
@[simp] theorem State.clearSlot_overflow (s : State) (i : SlotId) : (s.clearSlot i).overflow = s.overflow := rfl
@[simp] theorem State.clearSlot_ticketCounter (s : State) (i : SlotId) : (s.clearSlot i).ticketCounter = s.ticketCounter := rfl
@[simp] theorem State.clearSlot_check (s : State) (i : SlotId) : (s.clearSlot i).check = s.check := rfl
@[simp] theorem State.clearSlot_engineWait (s : State) (i : SlotId) : (s.clearSlot i).engineWait = s.engineWait := rfl

/-! ### reply -/

@[simp] theorem State.reply_pending (s : State) (p : Port) (st : Status) (fields : List Byte) : (s.reply p st fields).pending = s.pending := by
  unfold State.reply; split <;> rfl
@[simp] theorem State.reply_now (s : State) (p : Port) (st : Status) (fields : List Byte) : (s.reply p st fields).now = s.now := by
  unfold State.reply; split <;> rfl
@[simp] theorem State.reply_phase (s : State) (p : Port) (st : Status) (fields : List Byte) : (s.reply p st fields).phase = s.phase := by
  unfold State.reply; split <;> rfl
@[simp] theorem State.reply_walkAt (s : State) (p : Port) (st : Status) (fields : List Byte) : (s.reply p st fields).walkAt = s.walkAt := by
  unfold State.reply; split <;> rfl
@[simp] theorem State.reply_startUp (s : State) (p : Port) (st : Status) (fields : List Byte) : (s.reply p st fields).startUp = s.startUp := by
  unfold State.reply; split <;> rfl
@[simp] theorem State.reply_notices (s : State) (p : Port) (st : Status) (fields : List Byte) : (s.reply p st fields).notices = s.notices := by
  unfold State.reply; split <;> rfl
@[simp] theorem State.reply_mask (s : State) (p : Port) (st : Status) (fields : List Byte) : (s.reply p st fields).mask = s.mask := by
  unfold State.reply; split <;> rfl
@[simp] theorem State.reply_dropped (s : State) (p : Port) (st : Status) (fields : List Byte) : (s.reply p st fields).dropped = s.dropped := by
  unfold State.reply; split <;> rfl
@[simp] theorem State.reply_save (s : State) (p : Port) (st : Status) (fields : List Byte) : (s.reply p st fields).save = s.save := by
  unfold State.reply; split <;> rfl
@[simp] theorem State.reply_flash (s : State) (p : Port) (st : Status) (fields : List Byte) : (s.reply p st fields).flash = s.flash := by
  unfold State.reply; split <;> rfl
@[simp] theorem State.reply_timers (s : State) (p : Port) (st : Status) (fields : List Byte) : (s.reply p st fields).timers = s.timers := by
  unfold State.reply; split <;> rfl
@[simp] theorem State.reply_imageTimer (s : State) (p : Port) (st : Status) (fields : List Byte) : (s.reply p st fields).imageTimer = s.imageTimer := by
  unfold State.reply; split <;> rfl
@[simp] theorem State.reply_portTable (s : State) (p : Port) (st : Status) (fields : List Byte) : (s.reply p st fields).portTable = s.portTable := by
  unfold State.reply; split <;> rfl
@[simp] theorem State.reply_serviceRates (s : State) (p : Port) (st : Status) (fields : List Byte) : (s.reply p st fields).serviceRates = s.serviceRates := by
  unfold State.reply; split <;> rfl
@[simp] theorem State.reply_taxRates (s : State) (p : Port) (st : Status) (fields : List Byte) : (s.reply p st fields).taxRates = s.taxRates := by
  unfold State.reply; split <;> rfl
@[simp] theorem State.reply_items (s : State) (p : Port) (st : Status) (fields : List Byte) : (s.reply p st fields).items = s.items := by
  unfold State.reply; split <;> rfl
@[simp] theorem State.reply_availList (s : State) (p : Port) (st : Status) (fields : List Byte) : (s.reply p st fields).availList = s.availList := by
  unfold State.reply; split <;> rfl
@[simp] theorem State.reply_directory (s : State) (p : Port) (st : Status) (fields : List Byte) : (s.reply p st fields).directory = s.directory := by
  unfold State.reply; split <;> rfl
@[simp] theorem State.reply_freeList (s : State) (p : Port) (st : Status) (fields : List Byte) : (s.reply p st fields).freeList = s.freeList := by
  unfold State.reply; split <;> rfl
@[simp] theorem State.reply_closedList (s : State) (p : Port) (st : Status) (fields : List Byte) : (s.reply p st fields).closedList = s.closedList := by
  unfold State.reply; split <;> rfl
@[simp] theorem State.reply_slots (s : State) (p : Port) (st : Status) (fields : List Byte) : (s.reply p st fields).slots = s.slots := by
  unfold State.reply; split <;> rfl
@[simp] theorem State.reply_recency (s : State) (p : Port) (st : Status) (fields : List Byte) : (s.reply p st fields).recency = s.recency := by
  unfold State.reply; split <;> rfl
@[simp] theorem State.reply_tabMemory (s : State) (p : Port) (st : Status) (fields : List Byte) : (s.reply p st fields).tabMemory = s.tabMemory := by
  unfold State.reply; split <;> rfl
@[simp] theorem State.reply_memQueue (s : State) (p : Port) (st : Status) (fields : List Byte) : (s.reply p st fields).memQueue = s.memQueue := by
  unfold State.reply; split <;> rfl
@[simp] theorem State.reply_auditQueued (s : State) (p : Port) (st : Status) (fields : List Byte) : (s.reply p st fields).auditQueued = s.auditQueued := by
  unfold State.reply; split <;> rfl
@[simp] theorem State.reply_memRunning (s : State) (p : Port) (st : Status) (fields : List Byte) : (s.reply p st fields).memRunning = s.memRunning := by
  unfold State.reply; split <;> rfl
@[simp] theorem State.reply_flush (s : State) (p : Port) (st : Status) (fields : List Byte) : (s.reply p st fields).flush = s.flush := by
  unfold State.reply; split <;> rfl
@[simp] theorem State.reply_audit (s : State) (p : Port) (st : Status) (fields : List Byte) : (s.reply p st fields).audit = s.audit := by
  unfold State.reply; split <;> rfl
@[simp] theorem State.reply_holds (s : State) (p : Port) (st : Status) (fields : List Byte) : (s.reply p st fields).holds = s.holds := by
  unfold State.reply; split <;> rfl
@[simp] theorem State.reply_stations (s : State) (p : Port) (st : Status) (fields : List Byte) : (s.reply p st fields).stations = s.stations := by
  unfold State.reply; split <;> rfl
@[simp] theorem State.reply_overflow (s : State) (p : Port) (st : Status) (fields : List Byte) : (s.reply p st fields).overflow = s.overflow := by
  unfold State.reply; split <;> rfl
@[simp] theorem State.reply_ticketCounter (s : State) (p : Port) (st : Status) (fields : List Byte) : (s.reply p st fields).ticketCounter = s.ticketCounter := by
  unfold State.reply; split <;> rfl
@[simp] theorem State.reply_check (s : State) (p : Port) (st : Status) (fields : List Byte) : (s.reply p st fields).check = s.check := by
  unfold State.reply; split <;> rfl
@[simp] theorem State.reply_engineWait (s : State) (p : Port) (st : Status) (fields : List Byte) : (s.reply p st fields).engineWait = s.engineWait := by
  unfold State.reply; split <;> rfl

/-! ### answer -/

@[simp] theorem State.answer_pending (s : State) (p : Port) (st : Status) (kind tag : Byte) : (s.answer p st kind tag).pending = s.pending := by
  unfold State.answer; split <;> rfl
@[simp] theorem State.answer_now (s : State) (p : Port) (st : Status) (kind tag : Byte) : (s.answer p st kind tag).now = s.now := by
  unfold State.answer; split <;> rfl
@[simp] theorem State.answer_phase (s : State) (p : Port) (st : Status) (kind tag : Byte) : (s.answer p st kind tag).phase = s.phase := by
  unfold State.answer; split <;> rfl
@[simp] theorem State.answer_walkAt (s : State) (p : Port) (st : Status) (kind tag : Byte) : (s.answer p st kind tag).walkAt = s.walkAt := by
  unfold State.answer; split <;> rfl
@[simp] theorem State.answer_startUp (s : State) (p : Port) (st : Status) (kind tag : Byte) : (s.answer p st kind tag).startUp = s.startUp := by
  unfold State.answer; split <;> rfl
@[simp] theorem State.answer_notices (s : State) (p : Port) (st : Status) (kind tag : Byte) : (s.answer p st kind tag).notices = s.notices := by
  unfold State.answer; split <;> rfl
@[simp] theorem State.answer_mask (s : State) (p : Port) (st : Status) (kind tag : Byte) : (s.answer p st kind tag).mask = s.mask := by
  unfold State.answer; split <;> rfl
@[simp] theorem State.answer_dropped (s : State) (p : Port) (st : Status) (kind tag : Byte) : (s.answer p st kind tag).dropped = s.dropped := by
  unfold State.answer; split <;> rfl
@[simp] theorem State.answer_save (s : State) (p : Port) (st : Status) (kind tag : Byte) : (s.answer p st kind tag).save = s.save := by
  unfold State.answer; split <;> rfl
@[simp] theorem State.answer_flash (s : State) (p : Port) (st : Status) (kind tag : Byte) : (s.answer p st kind tag).flash = s.flash := by
  unfold State.answer; split <;> rfl
@[simp] theorem State.answer_timers (s : State) (p : Port) (st : Status) (kind tag : Byte) : (s.answer p st kind tag).timers = s.timers := by
  unfold State.answer; split <;> rfl
@[simp] theorem State.answer_imageTimer (s : State) (p : Port) (st : Status) (kind tag : Byte) : (s.answer p st kind tag).imageTimer = s.imageTimer := by
  unfold State.answer; split <;> rfl
@[simp] theorem State.answer_portTable (s : State) (p : Port) (st : Status) (kind tag : Byte) : (s.answer p st kind tag).portTable = s.portTable := by
  unfold State.answer; split <;> rfl
@[simp] theorem State.answer_serviceRates (s : State) (p : Port) (st : Status) (kind tag : Byte) : (s.answer p st kind tag).serviceRates = s.serviceRates := by
  unfold State.answer; split <;> rfl
@[simp] theorem State.answer_taxRates (s : State) (p : Port) (st : Status) (kind tag : Byte) : (s.answer p st kind tag).taxRates = s.taxRates := by
  unfold State.answer; split <;> rfl
@[simp] theorem State.answer_items (s : State) (p : Port) (st : Status) (kind tag : Byte) : (s.answer p st kind tag).items = s.items := by
  unfold State.answer; split <;> rfl
@[simp] theorem State.answer_availList (s : State) (p : Port) (st : Status) (kind tag : Byte) : (s.answer p st kind tag).availList = s.availList := by
  unfold State.answer; split <;> rfl
@[simp] theorem State.answer_directory (s : State) (p : Port) (st : Status) (kind tag : Byte) : (s.answer p st kind tag).directory = s.directory := by
  unfold State.answer; split <;> rfl
@[simp] theorem State.answer_freeList (s : State) (p : Port) (st : Status) (kind tag : Byte) : (s.answer p st kind tag).freeList = s.freeList := by
  unfold State.answer; split <;> rfl
@[simp] theorem State.answer_closedList (s : State) (p : Port) (st : Status) (kind tag : Byte) : (s.answer p st kind tag).closedList = s.closedList := by
  unfold State.answer; split <;> rfl
@[simp] theorem State.answer_slots (s : State) (p : Port) (st : Status) (kind tag : Byte) : (s.answer p st kind tag).slots = s.slots := by
  unfold State.answer; split <;> rfl
@[simp] theorem State.answer_recency (s : State) (p : Port) (st : Status) (kind tag : Byte) : (s.answer p st kind tag).recency = s.recency := by
  unfold State.answer; split <;> rfl
@[simp] theorem State.answer_tabMemory (s : State) (p : Port) (st : Status) (kind tag : Byte) : (s.answer p st kind tag).tabMemory = s.tabMemory := by
  unfold State.answer; split <;> rfl
@[simp] theorem State.answer_memQueue (s : State) (p : Port) (st : Status) (kind tag : Byte) : (s.answer p st kind tag).memQueue = s.memQueue := by
  unfold State.answer; split <;> rfl
@[simp] theorem State.answer_auditQueued (s : State) (p : Port) (st : Status) (kind tag : Byte) : (s.answer p st kind tag).auditQueued = s.auditQueued := by
  unfold State.answer; split <;> rfl
@[simp] theorem State.answer_memRunning (s : State) (p : Port) (st : Status) (kind tag : Byte) : (s.answer p st kind tag).memRunning = s.memRunning := by
  unfold State.answer; split <;> rfl
@[simp] theorem State.answer_flush (s : State) (p : Port) (st : Status) (kind tag : Byte) : (s.answer p st kind tag).flush = s.flush := by
  unfold State.answer; split <;> rfl
@[simp] theorem State.answer_audit (s : State) (p : Port) (st : Status) (kind tag : Byte) : (s.answer p st kind tag).audit = s.audit := by
  unfold State.answer; split <;> rfl
@[simp] theorem State.answer_holds (s : State) (p : Port) (st : Status) (kind tag : Byte) : (s.answer p st kind tag).holds = s.holds := by
  unfold State.answer; split <;> rfl
@[simp] theorem State.answer_stations (s : State) (p : Port) (st : Status) (kind tag : Byte) : (s.answer p st kind tag).stations = s.stations := by
  unfold State.answer; split <;> rfl
@[simp] theorem State.answer_overflow (s : State) (p : Port) (st : Status) (kind tag : Byte) : (s.answer p st kind tag).overflow = s.overflow := by
  unfold State.answer; split <;> rfl
@[simp] theorem State.answer_ticketCounter (s : State) (p : Port) (st : Status) (kind tag : Byte) : (s.answer p st kind tag).ticketCounter = s.ticketCounter := by
  unfold State.answer; split <;> rfl
@[simp] theorem State.answer_check (s : State) (p : Port) (st : Status) (kind tag : Byte) : (s.answer p st kind tag).check = s.check := by
  unfold State.answer; split <;> rfl
@[simp] theorem State.answer_engineWait (s : State) (p : Port) (st : Status) (kind tag : Byte) : (s.answer p st kind tag).engineWait = s.engineWait := by
  unfold State.answer; split <;> rfl

/-! ### raise -/

@[simp] theorem State.raise_pending (s : State) (n : Notice) : (s.raise n).pending = s.pending := by
  unfold State.raise; split <;> (try split) <;> rfl
@[simp] theorem State.raise_now (s : State) (n : Notice) : (s.raise n).now = s.now := by
  unfold State.raise; split <;> (try split) <;> rfl
@[simp] theorem State.raise_phase (s : State) (n : Notice) : (s.raise n).phase = s.phase := by
  unfold State.raise; split <;> (try split) <;> rfl
@[simp] theorem State.raise_walkAt (s : State) (n : Notice) : (s.raise n).walkAt = s.walkAt := by
  unfold State.raise; split <;> (try split) <;> rfl
@[simp] theorem State.raise_startUp (s : State) (n : Notice) : (s.raise n).startUp = s.startUp := by
  unfold State.raise; split <;> (try split) <;> rfl
@[simp] theorem State.raise_mask (s : State) (n : Notice) : (s.raise n).mask = s.mask := by
  unfold State.raise; split <;> (try split) <;> rfl
@[simp] theorem State.raise_save (s : State) (n : Notice) : (s.raise n).save = s.save := by
  unfold State.raise; split <;> (try split) <;> rfl
@[simp] theorem State.raise_flash (s : State) (n : Notice) : (s.raise n).flash = s.flash := by
  unfold State.raise; split <;> (try split) <;> rfl
@[simp] theorem State.raise_timers (s : State) (n : Notice) : (s.raise n).timers = s.timers := by
  unfold State.raise; split <;> (try split) <;> rfl
@[simp] theorem State.raise_imageTimer (s : State) (n : Notice) : (s.raise n).imageTimer = s.imageTimer := by
  unfold State.raise; split <;> (try split) <;> rfl
@[simp] theorem State.raise_portTable (s : State) (n : Notice) : (s.raise n).portTable = s.portTable := by
  unfold State.raise; split <;> (try split) <;> rfl
@[simp] theorem State.raise_ports (s : State) (n : Notice) : (s.raise n).ports = s.ports := by
  unfold State.raise; split <;> (try split) <;> rfl
@[simp] theorem State.raise_serviceRates (s : State) (n : Notice) : (s.raise n).serviceRates = s.serviceRates := by
  unfold State.raise; split <;> (try split) <;> rfl
@[simp] theorem State.raise_taxRates (s : State) (n : Notice) : (s.raise n).taxRates = s.taxRates := by
  unfold State.raise; split <;> (try split) <;> rfl
@[simp] theorem State.raise_items (s : State) (n : Notice) : (s.raise n).items = s.items := by
  unfold State.raise; split <;> (try split) <;> rfl
@[simp] theorem State.raise_availList (s : State) (n : Notice) : (s.raise n).availList = s.availList := by
  unfold State.raise; split <;> (try split) <;> rfl
@[simp] theorem State.raise_directory (s : State) (n : Notice) : (s.raise n).directory = s.directory := by
  unfold State.raise; split <;> (try split) <;> rfl
@[simp] theorem State.raise_freeList (s : State) (n : Notice) : (s.raise n).freeList = s.freeList := by
  unfold State.raise; split <;> (try split) <;> rfl
@[simp] theorem State.raise_closedList (s : State) (n : Notice) : (s.raise n).closedList = s.closedList := by
  unfold State.raise; split <;> (try split) <;> rfl
@[simp] theorem State.raise_slots (s : State) (n : Notice) : (s.raise n).slots = s.slots := by
  unfold State.raise; split <;> (try split) <;> rfl
@[simp] theorem State.raise_recency (s : State) (n : Notice) : (s.raise n).recency = s.recency := by
  unfold State.raise; split <;> (try split) <;> rfl
@[simp] theorem State.raise_tabMemory (s : State) (n : Notice) : (s.raise n).tabMemory = s.tabMemory := by
  unfold State.raise; split <;> (try split) <;> rfl
@[simp] theorem State.raise_memQueue (s : State) (n : Notice) : (s.raise n).memQueue = s.memQueue := by
  unfold State.raise; split <;> (try split) <;> rfl
@[simp] theorem State.raise_auditQueued (s : State) (n : Notice) : (s.raise n).auditQueued = s.auditQueued := by
  unfold State.raise; split <;> (try split) <;> rfl
@[simp] theorem State.raise_memRunning (s : State) (n : Notice) : (s.raise n).memRunning = s.memRunning := by
  unfold State.raise; split <;> (try split) <;> rfl
@[simp] theorem State.raise_flush (s : State) (n : Notice) : (s.raise n).flush = s.flush := by
  unfold State.raise; split <;> (try split) <;> rfl
@[simp] theorem State.raise_audit (s : State) (n : Notice) : (s.raise n).audit = s.audit := by
  unfold State.raise; split <;> (try split) <;> rfl
@[simp] theorem State.raise_holds (s : State) (n : Notice) : (s.raise n).holds = s.holds := by
  unfold State.raise; split <;> (try split) <;> rfl
@[simp] theorem State.raise_stations (s : State) (n : Notice) : (s.raise n).stations = s.stations := by
  unfold State.raise; split <;> (try split) <;> rfl
@[simp] theorem State.raise_overflow (s : State) (n : Notice) : (s.raise n).overflow = s.overflow := by
  unfold State.raise; split <;> (try split) <;> rfl
@[simp] theorem State.raise_ticketCounter (s : State) (n : Notice) : (s.raise n).ticketCounter = s.ticketCounter := by
  unfold State.raise; split <;> (try split) <;> rfl
@[simp] theorem State.raise_check (s : State) (n : Notice) : (s.raise n).check = s.check := by
  unfold State.raise; split <;> (try split) <;> rfl
@[simp] theorem State.raise_engineWait (s : State) (n : Notice) : (s.raise n).engineWait = s.engineWait := by
  unfold State.raise; split <;> (try split) <;> rfl

/-! ### restartHold -/

@[simp] theorem State.restartHold_pending (s : State) (p : Port) : (s.restartHold p).pending = s.pending := by
  unfold State.restartHold; split <;> rfl
@[simp] theorem State.restartHold_now (s : State) (p : Port) : (s.restartHold p).now = s.now := by
  unfold State.restartHold; split <;> rfl
@[simp] theorem State.restartHold_phase (s : State) (p : Port) : (s.restartHold p).phase = s.phase := by
  unfold State.restartHold; split <;> rfl
@[simp] theorem State.restartHold_walkAt (s : State) (p : Port) : (s.restartHold p).walkAt = s.walkAt := by
  unfold State.restartHold; split <;> rfl
@[simp] theorem State.restartHold_startUp (s : State) (p : Port) : (s.restartHold p).startUp = s.startUp := by
  unfold State.restartHold; split <;> rfl
@[simp] theorem State.restartHold_notices (s : State) (p : Port) : (s.restartHold p).notices = s.notices := by
  unfold State.restartHold; split <;> rfl
@[simp] theorem State.restartHold_mask (s : State) (p : Port) : (s.restartHold p).mask = s.mask := by
  unfold State.restartHold; split <;> rfl
@[simp] theorem State.restartHold_dropped (s : State) (p : Port) : (s.restartHold p).dropped = s.dropped := by
  unfold State.restartHold; split <;> rfl
@[simp] theorem State.restartHold_save (s : State) (p : Port) : (s.restartHold p).save = s.save := by
  unfold State.restartHold; split <;> rfl
@[simp] theorem State.restartHold_flash (s : State) (p : Port) : (s.restartHold p).flash = s.flash := by
  unfold State.restartHold; split <;> rfl
@[simp] theorem State.restartHold_timers (s : State) (p : Port) : (s.restartHold p).timers = s.timers := by
  unfold State.restartHold; split <;> rfl
@[simp] theorem State.restartHold_imageTimer (s : State) (p : Port) : (s.restartHold p).imageTimer = s.imageTimer := by
  unfold State.restartHold; split <;> rfl
@[simp] theorem State.restartHold_portTable (s : State) (p : Port) : (s.restartHold p).portTable = s.portTable := by
  unfold State.restartHold; split <;> rfl
@[simp] theorem State.restartHold_ports (s : State) (p : Port) : (s.restartHold p).ports = s.ports := by
  unfold State.restartHold; split <;> rfl
@[simp] theorem State.restartHold_serviceRates (s : State) (p : Port) : (s.restartHold p).serviceRates = s.serviceRates := by
  unfold State.restartHold; split <;> rfl
@[simp] theorem State.restartHold_taxRates (s : State) (p : Port) : (s.restartHold p).taxRates = s.taxRates := by
  unfold State.restartHold; split <;> rfl
@[simp] theorem State.restartHold_items (s : State) (p : Port) : (s.restartHold p).items = s.items := by
  unfold State.restartHold; split <;> rfl
@[simp] theorem State.restartHold_availList (s : State) (p : Port) : (s.restartHold p).availList = s.availList := by
  unfold State.restartHold; split <;> rfl
@[simp] theorem State.restartHold_directory (s : State) (p : Port) : (s.restartHold p).directory = s.directory := by
  unfold State.restartHold; split <;> rfl
@[simp] theorem State.restartHold_freeList (s : State) (p : Port) : (s.restartHold p).freeList = s.freeList := by
  unfold State.restartHold; split <;> rfl
@[simp] theorem State.restartHold_closedList (s : State) (p : Port) : (s.restartHold p).closedList = s.closedList := by
  unfold State.restartHold; split <;> rfl
@[simp] theorem State.restartHold_slots (s : State) (p : Port) : (s.restartHold p).slots = s.slots := by
  unfold State.restartHold; split <;> rfl
@[simp] theorem State.restartHold_recency (s : State) (p : Port) : (s.restartHold p).recency = s.recency := by
  unfold State.restartHold; split <;> rfl
@[simp] theorem State.restartHold_tabMemory (s : State) (p : Port) : (s.restartHold p).tabMemory = s.tabMemory := by
  unfold State.restartHold; split <;> rfl
@[simp] theorem State.restartHold_memQueue (s : State) (p : Port) : (s.restartHold p).memQueue = s.memQueue := by
  unfold State.restartHold; split <;> rfl
@[simp] theorem State.restartHold_auditQueued (s : State) (p : Port) : (s.restartHold p).auditQueued = s.auditQueued := by
  unfold State.restartHold; split <;> rfl
@[simp] theorem State.restartHold_memRunning (s : State) (p : Port) : (s.restartHold p).memRunning = s.memRunning := by
  unfold State.restartHold; split <;> rfl
@[simp] theorem State.restartHold_flush (s : State) (p : Port) : (s.restartHold p).flush = s.flush := by
  unfold State.restartHold; split <;> rfl
@[simp] theorem State.restartHold_audit (s : State) (p : Port) : (s.restartHold p).audit = s.audit := by
  unfold State.restartHold; split <;> rfl
@[simp] theorem State.restartHold_stations (s : State) (p : Port) : (s.restartHold p).stations = s.stations := by
  unfold State.restartHold; split <;> rfl
@[simp] theorem State.restartHold_overflow (s : State) (p : Port) : (s.restartHold p).overflow = s.overflow := by
  unfold State.restartHold; split <;> rfl
@[simp] theorem State.restartHold_ticketCounter (s : State) (p : Port) : (s.restartHold p).ticketCounter = s.ticketCounter := by
  unfold State.restartHold; split <;> rfl
@[simp] theorem State.restartHold_check (s : State) (p : Port) : (s.restartHold p).check = s.check := by
  unfold State.restartHold; split <;> rfl
@[simp] theorem State.restartHold_engineWait (s : State) (p : Port) : (s.restartHold p).engineWait = s.engineWait := by
  unfold State.restartHold; split <;> rfl

/-! ### endHold -/

@[simp] theorem State.endHold_pending (s : State) (t : Nat) : (s.endHold t).pending = s.pending := by
  unfold State.endHold; split <;> rfl
@[simp] theorem State.endHold_now (s : State) (t : Nat) : (s.endHold t).now = s.now := by
  unfold State.endHold; split <;> rfl
@[simp] theorem State.endHold_phase (s : State) (t : Nat) : (s.endHold t).phase = s.phase := by
  unfold State.endHold; split <;> rfl
@[simp] theorem State.endHold_walkAt (s : State) (t : Nat) : (s.endHold t).walkAt = s.walkAt := by
  unfold State.endHold; split <;> rfl
@[simp] theorem State.endHold_startUp (s : State) (t : Nat) : (s.endHold t).startUp = s.startUp := by
  unfold State.endHold; split <;> rfl
@[simp] theorem State.endHold_notices (s : State) (t : Nat) : (s.endHold t).notices = s.notices := by
  unfold State.endHold; split <;> rfl
@[simp] theorem State.endHold_mask (s : State) (t : Nat) : (s.endHold t).mask = s.mask := by
  unfold State.endHold; split <;> rfl
@[simp] theorem State.endHold_dropped (s : State) (t : Nat) : (s.endHold t).dropped = s.dropped := by
  unfold State.endHold; split <;> rfl
@[simp] theorem State.endHold_save (s : State) (t : Nat) : (s.endHold t).save = s.save := by
  unfold State.endHold; split <;> rfl
@[simp] theorem State.endHold_flash (s : State) (t : Nat) : (s.endHold t).flash = s.flash := by
  unfold State.endHold; split <;> rfl
@[simp] theorem State.endHold_timers (s : State) (t : Nat) : (s.endHold t).timers = s.timers := by
  unfold State.endHold; split <;> rfl
@[simp] theorem State.endHold_imageTimer (s : State) (t : Nat) : (s.endHold t).imageTimer = s.imageTimer := by
  unfold State.endHold; split <;> rfl
@[simp] theorem State.endHold_portTable (s : State) (t : Nat) : (s.endHold t).portTable = s.portTable := by
  unfold State.endHold; split <;> rfl
@[simp] theorem State.endHold_ports (s : State) (t : Nat) : (s.endHold t).ports = s.ports := by
  unfold State.endHold; split <;> rfl
@[simp] theorem State.endHold_serviceRates (s : State) (t : Nat) : (s.endHold t).serviceRates = s.serviceRates := by
  unfold State.endHold; split <;> rfl
@[simp] theorem State.endHold_taxRates (s : State) (t : Nat) : (s.endHold t).taxRates = s.taxRates := by
  unfold State.endHold; split <;> rfl
@[simp] theorem State.endHold_items (s : State) (t : Nat) : (s.endHold t).items = s.items := by
  unfold State.endHold; split <;> rfl
@[simp] theorem State.endHold_availList (s : State) (t : Nat) : (s.endHold t).availList = s.availList := by
  unfold State.endHold; split <;> rfl
@[simp] theorem State.endHold_freeList (s : State) (t : Nat) : (s.endHold t).freeList = s.freeList := by
  unfold State.endHold; split <;> rfl
@[simp] theorem State.endHold_closedList (s : State) (t : Nat) : (s.endHold t).closedList = s.closedList := by
  unfold State.endHold; split <;> rfl
@[simp] theorem State.endHold_slots (s : State) (t : Nat) : (s.endHold t).slots = s.slots := by
  unfold State.endHold; split <;> rfl
@[simp] theorem State.endHold_recency (s : State) (t : Nat) : (s.endHold t).recency = s.recency := by
  unfold State.endHold; split <;> rfl
@[simp] theorem State.endHold_tabMemory (s : State) (t : Nat) : (s.endHold t).tabMemory = s.tabMemory := by
  unfold State.endHold; split <;> rfl
@[simp] theorem State.endHold_memQueue (s : State) (t : Nat) : (s.endHold t).memQueue = s.memQueue := by
  unfold State.endHold; split <;> rfl
@[simp] theorem State.endHold_auditQueued (s : State) (t : Nat) : (s.endHold t).auditQueued = s.auditQueued := by
  unfold State.endHold; split <;> rfl
@[simp] theorem State.endHold_memRunning (s : State) (t : Nat) : (s.endHold t).memRunning = s.memRunning := by
  unfold State.endHold; split <;> rfl
@[simp] theorem State.endHold_flush (s : State) (t : Nat) : (s.endHold t).flush = s.flush := by
  unfold State.endHold; split <;> rfl
@[simp] theorem State.endHold_audit (s : State) (t : Nat) : (s.endHold t).audit = s.audit := by
  unfold State.endHold; split <;> rfl
@[simp] theorem State.endHold_stations (s : State) (t : Nat) : (s.endHold t).stations = s.stations := by
  unfold State.endHold; split <;> rfl
@[simp] theorem State.endHold_overflow (s : State) (t : Nat) : (s.endHold t).overflow = s.overflow := by
  unfold State.endHold; split <;> rfl
@[simp] theorem State.endHold_ticketCounter (s : State) (t : Nat) : (s.endHold t).ticketCounter = s.ticketCounter := by
  unfold State.endHold; split <;> rfl
@[simp] theorem State.endHold_check (s : State) (t : Nat) : (s.endHold t).check = s.check := by
  unfold State.endHold; split <;> rfl
@[simp] theorem State.endHold_engineWait (s : State) (t : Nat) : (s.endHold t).engineWait = s.engineWait := by
  unfold State.endHold; split <;> rfl

/-! ### uncache -/

@[simp] theorem State.uncache_pending (s : State) (i : SlotId) : (s.uncache i).pending = s.pending := by
  unfold State.uncache; split <;> rfl
@[simp] theorem State.uncache_now (s : State) (i : SlotId) : (s.uncache i).now = s.now := by
  unfold State.uncache; split <;> rfl
@[simp] theorem State.uncache_phase (s : State) (i : SlotId) : (s.uncache i).phase = s.phase := by
  unfold State.uncache; split <;> rfl
@[simp] theorem State.uncache_walkAt (s : State) (i : SlotId) : (s.uncache i).walkAt = s.walkAt := by
  unfold State.uncache; split <;> rfl
@[simp] theorem State.uncache_startUp (s : State) (i : SlotId) : (s.uncache i).startUp = s.startUp := by
  unfold State.uncache; split <;> rfl
@[simp] theorem State.uncache_notices (s : State) (i : SlotId) : (s.uncache i).notices = s.notices := by
  unfold State.uncache; split <;> rfl
@[simp] theorem State.uncache_mask (s : State) (i : SlotId) : (s.uncache i).mask = s.mask := by
  unfold State.uncache; split <;> rfl
@[simp] theorem State.uncache_dropped (s : State) (i : SlotId) : (s.uncache i).dropped = s.dropped := by
  unfold State.uncache; split <;> rfl
@[simp] theorem State.uncache_save (s : State) (i : SlotId) : (s.uncache i).save = s.save := by
  unfold State.uncache; split <;> rfl
@[simp] theorem State.uncache_flash (s : State) (i : SlotId) : (s.uncache i).flash = s.flash := by
  unfold State.uncache; split <;> rfl
@[simp] theorem State.uncache_timers (s : State) (i : SlotId) : (s.uncache i).timers = s.timers := by
  unfold State.uncache; split <;> rfl
@[simp] theorem State.uncache_imageTimer (s : State) (i : SlotId) : (s.uncache i).imageTimer = s.imageTimer := by
  unfold State.uncache; split <;> rfl
@[simp] theorem State.uncache_portTable (s : State) (i : SlotId) : (s.uncache i).portTable = s.portTable := by
  unfold State.uncache; split <;> rfl
@[simp] theorem State.uncache_ports (s : State) (i : SlotId) : (s.uncache i).ports = s.ports := by
  unfold State.uncache; split <;> rfl
@[simp] theorem State.uncache_serviceRates (s : State) (i : SlotId) : (s.uncache i).serviceRates = s.serviceRates := by
  unfold State.uncache; split <;> rfl
@[simp] theorem State.uncache_taxRates (s : State) (i : SlotId) : (s.uncache i).taxRates = s.taxRates := by
  unfold State.uncache; split <;> rfl
@[simp] theorem State.uncache_items (s : State) (i : SlotId) : (s.uncache i).items = s.items := by
  unfold State.uncache; split <;> rfl
@[simp] theorem State.uncache_availList (s : State) (i : SlotId) : (s.uncache i).availList = s.availList := by
  unfold State.uncache; split <;> rfl
@[simp] theorem State.uncache_freeList (s : State) (i : SlotId) : (s.uncache i).freeList = s.freeList := by
  unfold State.uncache; split <;> rfl
@[simp] theorem State.uncache_closedList (s : State) (i : SlotId) : (s.uncache i).closedList = s.closedList := by
  unfold State.uncache; split <;> rfl
@[simp] theorem State.uncache_slots (s : State) (i : SlotId) : (s.uncache i).slots = s.slots := by
  unfold State.uncache; split <;> rfl
@[simp] theorem State.uncache_recency (s : State) (i : SlotId) : (s.uncache i).recency = s.recency := by
  unfold State.uncache; split <;> rfl
@[simp] theorem State.uncache_tabMemory (s : State) (i : SlotId) : (s.uncache i).tabMemory = s.tabMemory := by
  unfold State.uncache; split <;> rfl
@[simp] theorem State.uncache_memQueue (s : State) (i : SlotId) : (s.uncache i).memQueue = s.memQueue := by
  unfold State.uncache; split <;> rfl
@[simp] theorem State.uncache_auditQueued (s : State) (i : SlotId) : (s.uncache i).auditQueued = s.auditQueued := by
  unfold State.uncache; split <;> rfl
@[simp] theorem State.uncache_memRunning (s : State) (i : SlotId) : (s.uncache i).memRunning = s.memRunning := by
  unfold State.uncache; split <;> rfl
@[simp] theorem State.uncache_flush (s : State) (i : SlotId) : (s.uncache i).flush = s.flush := by
  unfold State.uncache; split <;> rfl
@[simp] theorem State.uncache_audit (s : State) (i : SlotId) : (s.uncache i).audit = s.audit := by
  unfold State.uncache; split <;> rfl
@[simp] theorem State.uncache_holds (s : State) (i : SlotId) : (s.uncache i).holds = s.holds := by
  unfold State.uncache; split <;> rfl
@[simp] theorem State.uncache_stations (s : State) (i : SlotId) : (s.uncache i).stations = s.stations := by
  unfold State.uncache; split <;> rfl
@[simp] theorem State.uncache_overflow (s : State) (i : SlotId) : (s.uncache i).overflow = s.overflow := by
  unfold State.uncache; split <;> rfl
@[simp] theorem State.uncache_ticketCounter (s : State) (i : SlotId) : (s.uncache i).ticketCounter = s.ticketCounter := by
  unfold State.uncache; split <;> rfl
@[simp] theorem State.uncache_check (s : State) (i : SlotId) : (s.uncache i).check = s.check := by
  unfold State.uncache; split <;> rfl
@[simp] theorem State.uncache_engineWait (s : State) (i : SlotId) : (s.uncache i).engineWait = s.engineWait := by
  unfold State.uncache; split <;> rfl

/-! ### mapTracking -/

@[simp] theorem State.mapTracking_pending (s : State) (c : Nat) (f : Tracking → Tracking) : (s.mapTracking c f).pending = s.pending := by
  unfold State.mapTracking; split <;> rfl
@[simp] theorem State.mapTracking_now (s : State) (c : Nat) (f : Tracking → Tracking) : (s.mapTracking c f).now = s.now := by
  unfold State.mapTracking; split <;> rfl
@[simp] theorem State.mapTracking_phase (s : State) (c : Nat) (f : Tracking → Tracking) : (s.mapTracking c f).phase = s.phase := by
  unfold State.mapTracking; split <;> rfl
@[simp] theorem State.mapTracking_walkAt (s : State) (c : Nat) (f : Tracking → Tracking) : (s.mapTracking c f).walkAt = s.walkAt := by
  unfold State.mapTracking; split <;> rfl
@[simp] theorem State.mapTracking_startUp (s : State) (c : Nat) (f : Tracking → Tracking) : (s.mapTracking c f).startUp = s.startUp := by
  unfold State.mapTracking; split <;> rfl
@[simp] theorem State.mapTracking_notices (s : State) (c : Nat) (f : Tracking → Tracking) : (s.mapTracking c f).notices = s.notices := by
  unfold State.mapTracking; split <;> rfl
@[simp] theorem State.mapTracking_mask (s : State) (c : Nat) (f : Tracking → Tracking) : (s.mapTracking c f).mask = s.mask := by
  unfold State.mapTracking; split <;> rfl
@[simp] theorem State.mapTracking_dropped (s : State) (c : Nat) (f : Tracking → Tracking) : (s.mapTracking c f).dropped = s.dropped := by
  unfold State.mapTracking; split <;> rfl
@[simp] theorem State.mapTracking_save (s : State) (c : Nat) (f : Tracking → Tracking) : (s.mapTracking c f).save = s.save := by
  unfold State.mapTracking; split <;> rfl
@[simp] theorem State.mapTracking_flash (s : State) (c : Nat) (f : Tracking → Tracking) : (s.mapTracking c f).flash = s.flash := by
  unfold State.mapTracking; split <;> rfl
@[simp] theorem State.mapTracking_timers (s : State) (c : Nat) (f : Tracking → Tracking) : (s.mapTracking c f).timers = s.timers := by
  unfold State.mapTracking; split <;> rfl
@[simp] theorem State.mapTracking_imageTimer (s : State) (c : Nat) (f : Tracking → Tracking) : (s.mapTracking c f).imageTimer = s.imageTimer := by
  unfold State.mapTracking; split <;> rfl
@[simp] theorem State.mapTracking_portTable (s : State) (c : Nat) (f : Tracking → Tracking) : (s.mapTracking c f).portTable = s.portTable := by
  unfold State.mapTracking; split <;> rfl
@[simp] theorem State.mapTracking_ports (s : State) (c : Nat) (f : Tracking → Tracking) : (s.mapTracking c f).ports = s.ports := by
  unfold State.mapTracking; split <;> rfl
@[simp] theorem State.mapTracking_serviceRates (s : State) (c : Nat) (f : Tracking → Tracking) : (s.mapTracking c f).serviceRates = s.serviceRates := by
  unfold State.mapTracking; split <;> rfl
@[simp] theorem State.mapTracking_taxRates (s : State) (c : Nat) (f : Tracking → Tracking) : (s.mapTracking c f).taxRates = s.taxRates := by
  unfold State.mapTracking; split <;> rfl
@[simp] theorem State.mapTracking_availList (s : State) (c : Nat) (f : Tracking → Tracking) : (s.mapTracking c f).availList = s.availList := by
  unfold State.mapTracking; split <;> rfl
@[simp] theorem State.mapTracking_directory (s : State) (c : Nat) (f : Tracking → Tracking) : (s.mapTracking c f).directory = s.directory := by
  unfold State.mapTracking; split <;> rfl
@[simp] theorem State.mapTracking_freeList (s : State) (c : Nat) (f : Tracking → Tracking) : (s.mapTracking c f).freeList = s.freeList := by
  unfold State.mapTracking; split <;> rfl
@[simp] theorem State.mapTracking_closedList (s : State) (c : Nat) (f : Tracking → Tracking) : (s.mapTracking c f).closedList = s.closedList := by
  unfold State.mapTracking; split <;> rfl
@[simp] theorem State.mapTracking_slots (s : State) (c : Nat) (f : Tracking → Tracking) : (s.mapTracking c f).slots = s.slots := by
  unfold State.mapTracking; split <;> rfl
@[simp] theorem State.mapTracking_recency (s : State) (c : Nat) (f : Tracking → Tracking) : (s.mapTracking c f).recency = s.recency := by
  unfold State.mapTracking; split <;> rfl
@[simp] theorem State.mapTracking_tabMemory (s : State) (c : Nat) (f : Tracking → Tracking) : (s.mapTracking c f).tabMemory = s.tabMemory := by
  unfold State.mapTracking; split <;> rfl
@[simp] theorem State.mapTracking_memQueue (s : State) (c : Nat) (f : Tracking → Tracking) : (s.mapTracking c f).memQueue = s.memQueue := by
  unfold State.mapTracking; split <;> rfl
@[simp] theorem State.mapTracking_auditQueued (s : State) (c : Nat) (f : Tracking → Tracking) : (s.mapTracking c f).auditQueued = s.auditQueued := by
  unfold State.mapTracking; split <;> rfl
@[simp] theorem State.mapTracking_memRunning (s : State) (c : Nat) (f : Tracking → Tracking) : (s.mapTracking c f).memRunning = s.memRunning := by
  unfold State.mapTracking; split <;> rfl
@[simp] theorem State.mapTracking_flush (s : State) (c : Nat) (f : Tracking → Tracking) : (s.mapTracking c f).flush = s.flush := by
  unfold State.mapTracking; split <;> rfl
@[simp] theorem State.mapTracking_audit (s : State) (c : Nat) (f : Tracking → Tracking) : (s.mapTracking c f).audit = s.audit := by
  unfold State.mapTracking; split <;> rfl
@[simp] theorem State.mapTracking_holds (s : State) (c : Nat) (f : Tracking → Tracking) : (s.mapTracking c f).holds = s.holds := by
  unfold State.mapTracking; split <;> rfl
@[simp] theorem State.mapTracking_stations (s : State) (c : Nat) (f : Tracking → Tracking) : (s.mapTracking c f).stations = s.stations := by
  unfold State.mapTracking; split <;> rfl
@[simp] theorem State.mapTracking_overflow (s : State) (c : Nat) (f : Tracking → Tracking) : (s.mapTracking c f).overflow = s.overflow := by
  unfold State.mapTracking; split <;> rfl
@[simp] theorem State.mapTracking_ticketCounter (s : State) (c : Nat) (f : Tracking → Tracking) : (s.mapTracking c f).ticketCounter = s.ticketCounter := by
  unfold State.mapTracking; split <;> rfl
@[simp] theorem State.mapTracking_check (s : State) (c : Nat) (f : Tracking → Tracking) : (s.mapTracking c f).check = s.check := by
  unfold State.mapTracking; split <;> rfl
@[simp] theorem State.mapTracking_engineWait (s : State) (c : Nat) (f : Tracking → Tracking) : (s.mapTracking c f).engineWait = s.engineWait := by
  unfold State.mapTracking; split <;> rfl

/-- A refusal is a reply. -/
theorem State.refuse_eq (s : State) (p : Port) (st : Status) (d : Detail) : s.refuse p st d = s.reply p st d.bytes := rfl

end Sys2Proof.Machine
end

