-- ==== Sys2Proof/Laws/Tables.lean ====
section
/-! SUPPORT. Sparse tables: what is found after a change, and that every change keeps the keys rising. -/

namespace Sys2Proof.Machine

theorem tableFind_tablePut_self {α : Type} (k : Nat) (v : α) (l : List (Nat × α)) :
    tableFind k (tablePut k v l) = some v := by
  induction l with
  | nil => simp [tablePut, tableFind]
  | cons e rest ih =>
    obtain ⟨j, w⟩ := e
    simp only [tablePut]
    split
    · simp [tableFind]
    · split
      · simp [tableFind]
      · rename_i hj; simp [tableFind, hj, ih]

theorem tableFind_tablePut_other {α : Type} {k m : Nat} (h : m ≠ k) (v : α) (l : List (Nat × α)) :
    tableFind m (tablePut k v l) = tableFind m l := by
  induction l with
  | nil => simp [tablePut, tableFind, Ne.symm h]
  | cons e rest ih =>
    obtain ⟨j, w⟩ := e
    simp only [tablePut]
    split
    · simp [tableFind, Ne.symm h]
    · split
      · rename_i hj; subst hj; simp [tableFind, Ne.symm h]
      · simp only [tableFind, ih]

theorem tableFind_tableDrop_self {α : Type} (k : Nat) (l : List (Nat × α)) : tableFind k (tableDrop k l) = none := by
  induction l with
  | nil => rfl
  | cons e rest ih =>
    obtain ⟨j, w⟩ := e
    by_cases hj : j = k
    · simpa [tableDrop, hj] using ih
    · simpa [tableDrop, hj, tableFind] using ih

theorem tableFind_tableDrop_other {α : Type} {k m : Nat} (h : m ≠ k) (l : List (Nat × α)) :
    tableFind m (tableDrop k l) = tableFind m l := by
  induction l with
  | nil => rfl
  | cons e rest ih =>
    obtain ⟨j, w⟩ := e
    by_cases hj : j = k
    · subst hj; simpa [tableDrop, tableFind, Ne.symm h] using ih
    · have hd : tableDrop k ((j, w) :: rest) = (j, w) :: tableDrop k rest := by simp [tableDrop, hj]
      rw [hd]; simp only [tableFind, ih]

/-- What a put leaves listed: the new entry, and entries that were listed. -/
theorem mem_tablePut {α : Type} {k : Nat} {v : α} {l : List (Nat × α)} {e : Nat × α} (h : e ∈ tablePut k v l) :
    e = (k, v) ∨ e ∈ l := by
  induction l with
  | nil => simp only [tablePut, List.mem_singleton] at h; exact .inl h
  | cons f rest ih =>
    obtain ⟨j, w⟩ := f
    simp only [tablePut] at h
    split at h
    · rcases List.mem_cons.1 h with h | h
      · exact .inl h
      · exact .inr h
    · split at h
      · rcases List.mem_cons.1 h with h | h
        · exact .inl h
        · exact .inr (List.mem_cons_of_mem _ h)
      · rcases List.mem_cons.1 h with h | h
        · exact .inr (h ▸ List.mem_cons_self)
        · exact (ih h).imp id (List.mem_cons_of_mem _)

/-- What a drop leaves listed was listed. -/
theorem mem_tableDrop {α : Type} {k : Nat} {l : List (Nat × α)} {e : Nat × α} (h : e ∈ tableDrop k l) : e ∈ l :=
  List.mem_of_mem_filter h

/-- Rising keys, as a pairwise fact. -/
theorem tableRising_iff {α : Type} (l : List (Nat × α)) : tableRising l = true ↔ l.Pairwise (fun a b => a.1 < b.1) := by
  simp [tableRising, List.pairwise_map]

/-- A put keeps the one form. -/
theorem tableRising_tablePut {α : Type} (k : Nat) (v : α) {l : List (Nat × α)} (h : tableRising l = true) :
    tableRising (tablePut k v l) = true := by
  rw [tableRising_iff] at *
  induction l with
  | nil => simp [tablePut]
  | cons e rest ih =>
    obtain ⟨j, w⟩ := e
    obtain ⟨hj, hrest⟩ := List.pairwise_cons.1 h
    simp only [tablePut]
    split
    · rename_i hk
      refine List.pairwise_cons.2 ⟨fun b hb => ?_, h⟩
      rcases List.mem_cons.1 hb with rfl | hb
      · exact hk
      · exact Nat.lt_trans hk (hj b hb)
    · split
      · rename_i _ hjk
        exact List.pairwise_cons.2 ⟨fun b hb => hjk ▸ hj b hb, hrest⟩
      · rename_i hk hjk
        refine List.pairwise_cons.2 ⟨fun b hb => ?_, ih hrest⟩
        rcases mem_tablePut hb with rfl | hb
        · simp only; omega
        · exact hj b hb

/-- A drop keeps the one form. -/
theorem tableRising_tableDrop {α : Type} (k : Nat) {l : List (Nat × α)} (h : tableRising l = true) :
    tableRising (tableDrop k l) = true := by
  rw [tableRising_iff] at *
  exact h.filter _

end Sys2Proof.Machine
end

