-- ==== Sys2Proof/Laws/Ops.lean ====
section
/-! SUPPORT. What each named operation does, said once: the value read after a change, and the form of a reply, an answer, a notice
and a frame of the switch's own. -/

namespace Sys2Proof.Machine

/-! ### Reading after a change -/

@[simp] theorem State.port_setPort_self (s : State) (p : Port) (x : LanePort) : (s.setPort p x).port p = x := by
  simp [State.port, State.setPort]

theorem State.port_setPort_other (s : State) {p q : Port} (h : q ≠ p) (x : LanePort) :
    (s.setPort p x).port q = s.port q := by
  have : p.val ≠ q.val := fun e => h (Fin.ext e.symm)
  simp [State.port, State.setPort, this]

@[simp] theorem State.setPort_setPort (s : State) (p : Port) (x y : LanePort) :
    (s.setPort p x).setPort p y = s.setPort p y := by
  simp [State.setPort]

@[simp] theorem State.setPort_port (s : State) (p : Port) : s.setPort p (s.port p) = s := by
  simp [State.setPort, State.port]

@[simp] theorem State.slot_setSlot_self (s : State) (i : SlotId) (x : CacheSlot) : (s.setSlot i x).slot i = x := by
  simp [State.slot, State.setSlot]

theorem State.slot_setSlot_other (s : State) {i j : SlotId} (h : j ≠ i) (x : CacheSlot) :
    (s.setSlot i x).slot j = s.slot j := by
  have : i.val ≠ j.val := fun e => h (Fin.ext e.symm)
  simp [State.slot, State.setSlot, this]

@[simp] theorem State.setSlot_setSlot (s : State) (i : SlotId) (x y : CacheSlot) :
    (s.setSlot i x).setSlot i y = s.setSlot i y := by
  simp [State.setSlot]

@[simp] theorem State.setSlot_slot (s : State) (i : SlotId) : s.setSlot i (s.slot i) = s := by
  simp [State.setSlot, State.slot]

@[simp] theorem State.station_setStation_self (s : State) (p : Port) (x : Station) :
    (s.setStation p x).station p = x := by
  simp [State.station, State.setStation]

theorem State.station_setStation_other (s : State) {p q : Port} (h : q ≠ p) (x : Station) :
    (s.setStation p x).station q = s.station q := by
  have : p.val ≠ q.val := fun e => h (Fin.ext e.symm)
  simp [State.station, State.setStation, this]

@[simp] theorem State.setStation_setStation (s : State) (p : Port) (x y : Station) :
    (s.setStation p x).setStation p y = s.setStation p y := by
  simp [State.setStation]

@[simp] theorem State.hold_setHold_self (s : State) (p : Port) (h : Option Hold) : (s.setHold p h).hold p = h := by
  simp [State.hold, State.setHold]

theorem State.hold_setHold_other (s : State) {p q : Port} (hq : q ≠ p) (h : Option Hold) :
    (s.setHold p h).hold q = s.hold q := by
  have : p.val ≠ q.val := fun e => hq (Fin.ext e.symm)
  simp [State.hold, State.setHold, this]

@[simp] theorem State.role_setRole_self (s : State) (p : Port) (r : PortRole) : (s.setRole p r).role p = r := by
  simp [State.role, State.setRole]

theorem State.role_setRole_other (s : State) {p q : Port} (h : q ≠ p) (r : PortRole) :
    (s.setRole p r).role q = s.role q := by
  have : p.val ≠ q.val := fun e => h (Fin.ext e.symm)
  simp [State.role, State.setRole, this]

@[simp] theorem State.dir_setDir_self (s : State) (t : Nat) (e : DirEntry) : (s.setDir t e).dir t = e := by
  unfold State.dir State.setDir
  by_cases h : e = DirEntry.formatted
  · simp [h, tableFind_tableDrop_self]
  · simp [h, tableFind_tablePut_self]

theorem State.dir_setDir_other (s : State) {t u : Nat} (h : u ≠ t) (e : DirEntry) : (s.setDir t e).dir u = s.dir u := by
  unfold State.dir State.setDir
  by_cases hf : e = DirEntry.formatted
  · simp [hf, tableFind_tableDrop_other h]
  · simp [hf, tableFind_tablePut_other h]

@[simp] theorem State.item_setItem_self (s : State) (c : Nat) (x : Option Item) : (s.setItem c x).item c = x := by
  unfold State.item State.setItem
  cases x <;> simp [tableFind_tableDrop_self, tableFind_tablePut_self]

theorem State.item_setItem_other (s : State) {c d : Nat} (h : d ≠ c) (x : Option Item) :
    (s.setItem c x).item d = s.item d := by
  unfold State.item State.setItem
  cases x <;> simp [tableFind_tableDrop_other h, tableFind_tablePut_other h]

/-- The directory keeps its one form. -/
theorem State.setDir_inForm (s : State) (t : Nat) (e : DirEntry) (h : tableRising s.directory = true) :
    tableRising (s.setDir t e).directory = true := by
  unfold State.setDir
  by_cases hf : e = DirEntry.formatted
  · simpa [hf] using tableRising_tableDrop t h
  · simpa [hf] using tableRising_tablePut t e h

/-- The item table keeps its one form. -/
theorem State.setItem_inForm (s : State) (c : Nat) (x : Option Item) (h : tableRising s.items = true) :
    tableRising (s.setItem c x).items = true := by
  unfold State.setItem
  cases x
  · exact tableRising_tableDrop c h
  · exact tableRising_tablePut c _ h

/-! ### Transmit queues -/

/-- The arbiter loses no frame and makes none: the frames of a queue are only rearranged (R149). -/
theorem arbitrate_frames (x : LanePort) : x.arbitrate.frames.Perm x.frames := by
  unfold LanePort.arbitrate
  split
  · rename_i f hs hf
    have hmem : f ∈ x.queue := by
      unfold pickFrame at hf
      cases hfind : x.queue.find? (fun f => decide (f.kind = .reply)) with
      | some g => simp [hfind] at hf; subst hf; exact List.mem_of_find?_eq_some hfind
      | none => simp [hfind] at hf; exact List.mem_of_mem_head? hf
    simpa [LanePort.frames, hs] using (List.perm_cons_erase hmem).symm
  · exact List.Perm.refl _

/-- A frame put into a transmit queue is there, beside those that were there (R148). -/
theorem put_frames (x : LanePort) (f : TxFrame) : (x.put f).frames.Perm (f :: x.frames) := by
  refine (arbitrate_frames _).trans ?_
  simpa [LanePort.frames] using (List.perm_append_comm (l₁ := x.sending.toList ++ x.queue) (l₂ := [f]))

@[simp] theorem arbitrate_request (x : LanePort) : x.arbitrate.request = x.request := by
  unfold LanePort.arbitrate; split <;> rfl
@[simp] theorem arbitrate_stale (x : LanePort) : x.arbitrate.stale = x.stale := by
  unfold LanePort.arbitrate; split <;> rfl
@[simp] theorem arbitrate_image (x : LanePort) : x.arbitrate.image = x.image := by
  unfold LanePort.arbitrate; split <;> rfl
@[simp] theorem arbitrate_tagCount (x : LanePort) : x.arbitrate.tagCount = x.tagCount := by
  unfold LanePort.arbitrate; split <;> rfl
@[simp] theorem arbitrate_assembly (x : LanePort) : x.arbitrate.assembly = x.assembly := by
  unfold LanePort.arbitrate; split <;> rfl
@[simp] theorem arbitrate_discarding (x : LanePort) : x.arbitrate.discarding = x.discarding := by
  unfold LanePort.arbitrate; split <;> rfl
@[simp] theorem put_request (x : LanePort) (f : TxFrame) : (x.put f).request = x.request := by simp [LanePort.put]
@[simp] theorem put_stale (x : LanePort) (f : TxFrame) : (x.put f).stale = x.stale := by simp [LanePort.put]
@[simp] theorem put_image (x : LanePort) (f : TxFrame) : (x.put f).image = x.image := by simp [LanePort.put]
@[simp] theorem put_tagCount (x : LanePort) (f : TxFrame) : (x.put f).tagCount = x.tagCount := by simp [LanePort.put]
@[simp] theorem put_assembly (x : LanePort) (f : TxFrame) : (x.put f).assembly = x.assembly := by simp [LanePort.put]
@[simp] theorem put_discarding (x : LanePort) (f : TxFrame) : (x.put f).discarding = x.discarding := by
  simp [LanePort.put]

/-! ### Replies, answers, notices -/

/-- Everything a reply can do (R146, R155): with a request in the port's slot its REPLY frame enters the port's queue; without one
nothing happens. -/
theorem State.reply_spec (s : State) (p : Port) (st : Status) (fields : List Byte) :
    (∃ r, (s.port p).request = some r ∧ s.reply p st fields = s.setPort p ((s.port p).put
      { kind := .reply, tag := r.tag, body := st.byte :: r.kind.byte :: fields, source := .slotReply })) ∨
    ((s.port p).request = none ∧ s.reply p st fields = s) := by
  unfold State.reply
  cases h : (s.port p).request with
  | none => exact .inr ⟨rfl, rfl⟩
  | some r => exact .inl ⟨r, rfl, rfl⟩

/-- The reply of the request in the slot. -/
theorem State.reply_of_request (s : State) (p : Port) (st : Status) (fields : List Byte) {r : SlotRequest}
    (h : (s.port p).request = some r) : s.reply p st fields = s.setPort p ((s.port p).put
      { kind := .reply, tag := r.tag, body := st.byte :: r.kind.byte :: fields, source := .slotReply }) := by
  unfold State.reply; rw [h]

/-- A reply reaches no other port. -/
theorem State.reply_other (s : State) {p q : Port} (h : q ≠ p) (st : Status) (fields : List Byte) :
    (s.reply p st fields).port q = s.port q := by
  rcases s.reply_spec p st fields with ⟨r, -, e⟩ | ⟨-, e⟩ <;> rw [e]
  exact s.port_setPort_other h _

/-- Everything an answer to an untaken frame can do (R147). -/
theorem State.answer_spec (s : State) (p : Port) (st : Status) (kind tag : Byte) :
    ((s.port p).hasRoom = true ∧ s.answer p st kind tag = s.setPort p ((s.port p).put
      { kind := .reply, tag := tag, body := [st.byte, kind], source := .answer })) ∨
    ((s.port p).hasRoom = false ∧ s.answer p st kind tag = s) := by
  unfold State.answer
  cases h : (s.port p).hasRoom with
  | true => exact .inl ⟨rfl, if_pos rfl⟩
  | false => exact .inr ⟨rfl, by simp⟩

/-- Everything raising a notice can do (R168). -/
theorem State.raise_spec (s : State) (n : Notice) :
    (s.mask.getLsbD (n.class - 1) = false ∧ s.raise n = s) ∨
    (s.mask.getLsbD (n.class - 1) = true ∧ s.notices.length < 16 ∧ s.raise n = { s with notices := s.notices ++ [n] }) ∨
    (s.mask.getLsbD (n.class - 1) = true ∧ 16 ≤ s.notices.length ∧ s.raise n = { s with dropped := true }) := by
  unfold State.raise
  cases hm : s.mask.getLsbD (n.class - 1) with
  | false => exact .inl ⟨rfl, by simp⟩
  | true =>
    by_cases hl : s.notices.length < 16
    · exact .inr (.inl ⟨rfl, hl, by simp [hl]⟩)
    · exact .inr (.inr ⟨rfl, by omega, by simp [hl]⟩)

/-- The notice queue keeps its capacity (R168). -/
theorem State.raise_fits (s : State) (n : Notice) (h : s.notices.length ≤ 16) : (s.raise n).notices.length ≤ 16 := by
  rcases s.raise_spec n with ⟨-, e⟩ | ⟨-, hl, e⟩ | ⟨-, -, e⟩ <;> rw [e]
  · exact h
  · simp; omega
  · exact h

end Sys2Proof.Machine
end

