-- ==== Sys2Proof/Laws/Cache.lean ====
section
/-! SUPPORT. What the shared operations of the cache can do: a time limit, the head of a wait list, the answers to those who wait, a tab
that becomes DAMAGED, and the plan that an OPEN tab no longer allows. -/

namespace Sys2Proof.Machine

@[simp] theorem State.reach_now (s : State) (m : Nat) : (s.reach m).now = max s.now m := rfl

/-- A time limit has not run out exactly when it does not lie in the past (R30, R174). -/
@[simp] theorem State.inTime_iff (s : State) (limit : Nat) : s.inTime limit = true ↔ s.now ≤ limit := by
  simp [State.inTime]

/-! ### The head of a wait list (R25, R128) -/

/-- A request that executes has left the wait list, and its slot is most recent. -/
theorem State.runHead_eq (s : State) (i : SlotId) {w : Waiter} {rest : List Waiter} (h : (s.slot i).waits = w :: rest) :
    s.runHead i w = perform i w.port w.request
      { s.setSlot i { s.slot i with waits := rest } with recency := s.recency.filter (fun j => j ≠ i) ++ [i] } := by
  simp [State.runHead, State.popWaiter, State.touch, h]

/-- Everything the head of a wait list can do: nothing at a slot that is not READY, with nobody waiting, or with a SPLIT that the split engine
keeps; a SPLIT comes to the gate of R128; any other request executes. -/
theorem State.executeHead_cases (s : State) (i : SlotId) :
    (((s.slot i).state ≠ .ready ∨ (s.slot i).waits = [] ∨ ∃ w rest, (s.slot i).waits = w :: rest ∧ w.port ∈ s.engineWait) ∧
      s.executeHead i = s) ∨
    ∃ w rest, (s.slot i).state = .ready ∧ (s.slot i).waits = w :: rest ∧ w.port ∉ s.engineWait ∧
      ((w.request.isSplit = true ∧ s.executeHead i = s.splitGate i w) ∨
        (w.request.isSplit = false ∧ s.executeHead i = s.runHead i w)) := by
  unfold State.executeHead
  by_cases hr : (s.slot i).state = .ready
  · cases hw : (s.slot i).waits with
    | nil => exact .inl ⟨.inr (.inl rfl), by simp⟩
    | cons w rest =>
      by_cases he : w.port ∈ s.engineWait
      · exact .inl ⟨.inr (.inr ⟨w, rest, rfl, he⟩), by simp [he]⟩
      · refine .inr ⟨w, rest, hr, rfl, he, ?_⟩
        cases hs : w.request.isSplit <;> simp [hr, he, hs]
  · exact .inl ⟨.inl hr, if_pos hr⟩

/-- At a READY slot a request that the split engine does not keep executes; a SPLIT when the check has passed. -/
theorem State.executeHead_runs (s : State) (i : SlotId) {w : Waiter} {rest : List Waiter} (hr : (s.slot i).state = .ready)
    (h : (s.slot i).waits = w :: rest) (hw : w.port ∉ s.engineWait) (hc : w.request.isSplit = true → s.check = .passed) :
    s.executeHead i = perform i w.port w.request
      { s.setSlot i { s.slot i with waits := rest } with recency := s.recency.filter (fun j => j ≠ i) ++ [i] } := by
  rw [← s.runHead_eq i h]
  unfold State.executeHead
  rw [h]
  cases hs : w.request.isSplit with
  | true => simp [hr, hw, hs, State.splitGate, hc hs]
  | false => simp [hr, hw, hs]

/-! ### Those who wait are answered (R28, R33, R35) -/

/-- A refusal reaches no port but the waiter's. -/
theorem State.refuseWaiter_other (s : State) (st : Status) (w : Waiter) {q : Port} (h : q ≠ w.port) :
    (s.refuseWaiter st w).port q = s.port q := s.reply_other h _ _

/-- Answering a list of waiters changes nothing but the ports. -/
theorem State.refuseWaiters_frame (st : Status) (ws : List Waiter) (s : State) :
    ∃ ports, ws.foldl (State.refuseWaiter st) s = { s with ports := ports } := by
  induction ws generalizing s with
  | nil => exact ⟨s.ports, rfl⟩
  | cons w ws ih =>
    obtain ⟨ports, h⟩ := ih (s.refuseWaiter st w)
    rw [List.foldl_cons, h]
    refine ⟨ports, ?_⟩
    rcases s.reply_spec w.port st (requestDetail w.request).bytes with ⟨r, -, e⟩ | ⟨-, e⟩
    · rw [State.refuseWaiter, State.refuse, e]; rfl
    · rw [State.refuseWaiter, State.refuse, e]

/-! ### Notices, damage and plans -/

/-- Raising a notice changes nothing but the notice queue and the dropped mark (R168). -/
theorem State.raise_frame (s : State) (n : Notice) :
    s.raise n = { s with notices := (s.raise n).notices, dropped := (s.raise n).dropped } := by
  rcases s.raise_spec n with ⟨-, e⟩ | ⟨-, -, e⟩ | ⟨-, -, e⟩ <;> rw [e]

/-- Everything damage to a tab can do (R9): its holder loses the hold, its entry is DAMAGED with no holder and no slot, and it leaves the
closed list. -/
theorem State.damageTab_spec (s : State) (tab : Nat) :
    (s.damageTab tab).dir tab = { s.dir tab with state := .damaged, holder := none, slot := none } ∧
    (∀ u, u ≠ tab → (s.damageTab tab).dir u = s.dir u) ∧
    (∀ q, (s.dir tab).holder = some q → (s.damageTab tab).hold q = none ∧ ∀ r, r ≠ q → (s.damageTab tab).hold r = s.hold r) ∧
    ((s.dir tab).holder = none → (s.damageTab tab).holds = s.holds) ∧
    (s.damageTab tab).closedList = s.closedList.filter (fun u => u ≠ tab) ∧
    { s.damageTab tab with directory := s.directory, holds := s.holds, closedList := s.closedList } = s := by
  have d : ∀ u, (s.damageTab tab).dir u = ((s.endHold tab).setDir tab
      { (s.endHold tab).dir tab with state := .damaged, slot := none }).dir u := fun _ => rfl
  have k : ∀ q, (s.damageTab tab).hold q = (s.endHold tab).hold q := fun _ => rfl
  have self : (s.damageTab tab).dir tab = { (s.endHold tab).dir tab with state := .damaged, slot := none } :=
    (d tab).trans (State.dir_setDir_self _ _ _)
  have other : ∀ u, u ≠ tab → (s.damageTab tab).dir u = (s.endHold tab).dir u :=
    fun u hu => (d u).trans (State.dir_setDir_other _ hu _)
  rcases h : (s.dir tab).holder with _ | p
  · have e : s.endHold tab = s := by unfold State.endHold; rw [h]
    rw [e] at self other
    refine ⟨by rw [self, ← h], other, by simp, fun _ => ?_, ?_, ?_⟩ <;> (unfold State.damageTab; rw [e] <;> rfl)
  · have e : s.endHold tab = (s.setHold p none).setDir tab { s.dir tab with holder := none } := by
      unfold State.endHold; rw [h]
    rw [e] at self other k
    refine ⟨by rw [self, State.dir_setDir_self], fun u hu => ?_, fun q hq => ?_, by simp, ?_, ?_⟩
    · rw [other u hu, State.dir_setDir_other _ hu]; rfl
    · cases hq
      exact ⟨(k p).trans (s.hold_setHold_self p none), fun r hr => (k r).trans (s.hold_setHold_other hr none)⟩
    all_goals (unfold State.damageTab; rw [e]; rfl)

/-- A plan is dropped from a slot's record, which is then dirty if it had one (R27). -/
theorem State.dropPlan_eq (s : State) (i : SlotId) {r : TabRecord} (h : (s.slot i).record = some r) :
    s.dropPlan i = s.setSlot i { s.slot i with
      record := some { r with plan := none }, dirty := (s.slot i).dirty || decide (r.plan ≠ none) } := by
  unfold State.dropPlan
  rw [h]
  by_cases hp : r.plan = none
  · have e : { r with plan := none } = r := by rw [← hp]
    simp only [hp, e, ← h, ne_eq, not_true, decide_false, Bool.or_false, if_true]
    exact (s.setSlot_slot i).symm
  · simp [hp, State.writeRecord]

end Sys2Proof.Machine
end

