-- ==== Sys2Proof/Laws/Flash.lean ====
section
/-! SUPPORT. The configuration flash: a node that was written whole is read back whole, wherever it stands (R159, R162, R163). -/

namespace Sys2Proof.Machine

/-- A byte of the flash that stands in a run. -/
theorem flashByte_mid (before run after : List Byte) (k : Nat) (h : k < run.length) :
    flashByte (before ++ run ++ after) (before.length + k) = run[k] := by
  unfold flashByte
  rw [List.getD_eq_getElem?_getD, List.append_assoc, List.getElem?_append_right (Nat.le_add_right _ _),
    Nat.add_sub_cancel_left, List.getElem?_append_left h, List.getElem?_eq_getElem h, Option.getD_some]

/-- A run of the flash is read back whole. -/
theorem flashRun_mid (before run after : List Byte) (n : Nat) (h : n = run.length) :
    flashRun (before ++ run ++ after) before.length n = run := by
  subst h
  apply List.ext_getElem
  · simp [flashRun]
  · intro k h1 h2
    simp only [flashRun, List.getElem_map, List.getElem_range]
    exact flashByte_mid before run after k h2

/-- What stands in a node's place has the node's length (R174). -/
@[simp] theorem inPlaceOf_length (node bytes : List Byte) : (inPlaceOf node bytes).length = node.length := by
  simp [inPlaceOf, flashRun]

/-- What stands in a node's place: the bytes given, up to the node's length, and erased ones. -/
theorem inPlaceOf_eq (node bytes : List Byte) : inPlaceOf node bytes =
    bytes.take node.length ++ List.replicate (node.length - bytes.length) Config.erasedByte := by
  apply List.ext_getElem
  · simp; omega
  · intro k h1 h2
    have hk : k < node.length := by simpa using h1
    simp only [inPlaceOf, flashRun, flashByte, List.getElem_map, List.getElem_range, Nat.zero_add, List.getD_eq_getElem?_getD]
    by_cases hb : k < bytes.length
    · rw [List.getElem_append_left (by simp; omega)]; simp [hb]
    · rw [List.getElem_append_right (by simp; omega)]; simp [hb]

/-- A node that was written and read back whole stands in its place. -/
@[simp] theorem inPlaceOf_self (node : List Byte) : inPlaceOf node node = node := by simp [inPlaceOf_eq]

/-- Every byte after a failing node is erased (R174). -/
theorem flashByte_after_place (flash node left : List Byte) {n : Nat} (h : flash.length + node.length ≤ n) :
    flashByte (flash ++ inPlaceOf node left) n = Config.erasedByte := by
  unfold flashByte
  rw [List.getD_eq_default]
  simpa using h

/-- An erase that did not end leaves no byte beyond the chain that stood there (R174). -/
@[simp] theorem erasedInPart_length (flash left : List Byte) : (erasedInPart flash left).length = flash.length := by
  simp [erasedInPart]

/-- And each byte of that chain as it was, where `left` has it, or erased. -/
theorem erasedInPart_getElem? (flash left : List Byte) {n : Nat} {b : Byte} (h : flash[n]? = some b) :
    (erasedInPart flash left)[n]? = some (if left.getD n Config.erasedByte = b then b else Config.erasedByte) := by
  have hn : n < flash.length := (List.getElem?_eq_some_iff.mp h).1
  simp [erasedInPart, flashByte, List.getElem?_map, List.getElem?_range hn, h]

/-- Time does not change what a save writes (R174). -/
@[simp] theorem State.reach_saveChain (s : State) (m : Nat) : (s.reach m).saveChain = s.saveChain := rfl

theorem read2_num2 {n : Nat} (h : n < 65536) : read2 (BitVec.ofNat 8 n) (BitVec.ofNat 8 (n / 256)) = n := by
  simp only [read2, BitVec.toNat_ofNat]; omega

/-- What the config walk makes of a node that was written whole, wherever it stands (R159, R162, R163): its body is judged. -/
theorem readNode_flashNode (before after : List Byte) (id : Nat) (body : List Byte) (hid : 1 ≤ id ∧ id ≤ 7)
    (hb : body.length ≤ 1024) (hfit : before.length + body.length + 5 ≤ Config.flashBytes) :
    readNode (before ++ flashNode id body ++ after) before.length =
      (readNodeBody id body).map (fun load => (load, before.length + body.length + 5)) := by
  have hcrc : ∀ l, (crcBytes l).length = 2 := fun _ => rfl
  have hlen : (flashNode id body).length = body.length + 5 := by simp [flashNode, num1, num2, hcrc]
  have front : flashNode id body = (num1 id ++ num2 body.length ++ body) ++ crcBytes (num1 id ++ num2 body.length ++ body) := rfl
  have b0 : flashByte (before ++ flashNode id body ++ after) before.length = BitVec.ofNat 8 id := by
    have := flashByte_mid before (flashNode id body) after 0 (by omega)
    simpa [flashNode, num1, num2] using this
  have b1 : flashByte (before ++ flashNode id body ++ after) (before.length + 1) = BitVec.ofNat 8 body.length := by
    have := flashByte_mid before (flashNode id body) after 1 (by omega)
    simpa [flashNode, num1, num2] using this
  have b2 : flashByte (before ++ flashNode id body ++ after) (before.length + 2) = BitVec.ofNat 8 (body.length / 256) := by
    have := flashByte_mid before (flashNode id body) after 2 (by omega)
    simpa [flashNode, num1, num2] using this
  have r1 : flashRun (before ++ flashNode id body ++ after) before.length (body.length + 3) =
      num1 id ++ num2 body.length ++ body := by
    rw [front, ← List.append_assoc, List.append_assoc _ _ after]
    exact flashRun_mid _ _ _ _ (by simp [num1, num2])
  have r2 : flashRun (before ++ flashNode id body ++ after) (before.length + body.length + 3) 2 =
      crcBytes (num1 id ++ num2 body.length ++ body) := by
    have e : before.length + body.length + 3 = (before ++ (num1 id ++ num2 body.length ++ body)).length := by
      simp [num1, num2]; omega
    rw [front, ← List.append_assoc, e]
    exact flashRun_mid _ _ _ _ (hcrc _).symm
  have hidv : (BitVec.ofNat 8 id).toNat = id := by simp only [BitVec.toNat_ofNat]; omega
  unfold readNode
  simp only [b0, b1, b2, hidv, read2_num2 (show body.length < 65536 by omega)]
  rw [if_neg (by omega), r1, r2, if_pos rfl]
  rfl

end Sys2Proof.Machine
end

