-- ==== Sys2Proof/Laws/Memory.lean ====
section
/-! SUPPORT. Tab memory: a write is read back, touches no other tab number, and keeps the one form; the form holds at reset; and what
R31's comparison lets pass. -/

namespace Sys2Proof.Machine

/-- Tab memory stands in its one form: the tab numbers listed rise. -/
abbrev memoryInForm (s : State) : Bool := tableRising s.tabMemory

theorem store_read_self (s : State) (t : Nat) (cell : StoredRecord) :
    (s.store t cell).readMemory t .asWritten = some cell := tableFind_tablePut_self t cell s.tabMemory

theorem store_read_other (s : State) {t u : Nat} (h : u ≠ t) (cell : StoredRecord) :
    (s.store t cell).readMemory u .asWritten = s.readMemory u .asWritten := tableFind_tablePut_other h cell s.tabMemory

theorem store_inForm (s : State) (t : Nat) (cell : StoredRecord) (h : memoryInForm s = true) :
    memoryInForm (s.store t cell) = true := tableRising_tablePut t cell h

theorem reset_memory_inForm : memoryInForm State.reset = true := rfl

/-! ### The check word (R31) -/

/-- Everything a comparison can let pass: a record with the tab number asked for, read with the check word computed over it. -/
theorem passes_eq_some_iff (t : Nat) (read : Option StoredRecord) (r : TabRecord) :
    passes t read = some r ↔ ∃ c, read = some c ∧ c.record = r ∧ c.check = recordCheck r ∧ r.tab = t := by
  cases read with
  | none => simp [passes]
  | some c =>
    simp only [passes, Option.some.injEq, exists_eq_left']
    split <;> rename_i h
    · exact ⟨fun e => by cases e; exact ⟨rfl, h⟩, fun e => congrArg some e.1⟩
    · exact ⟨nofun, fun e => absurd (e.1 ▸ e.2) h⟩

/-- A record read as a write-back wrote it passes at its own tab number. -/
theorem passes_withCheck (r : TabRecord) : passes r.tab (some (withCheck r)) = some r :=
  (passes_eq_some_iff ..).2 ⟨_, rfl, rfl, rfl, rfl⟩

/-- A record read with any other check word fails, at every tab number. -/
theorem passes_wrong_check (t : Nat) {r : TabRecord} {check : BitVec 16} (h : check ≠ recordCheck r) :
    passes t (some { record := r, check := check }) = none :=
  if_neg (fun e => h e.1)

/-- A record read at another record's tab number fails, whatever its check word. -/
theorem passes_wrong_tab {t : Nat} {c : StoredRecord} (h : c.record.tab ≠ t) : passes t (some c) = none :=
  if_neg (fun e => h e.2)

/-- What a completed write-back leaves: its record is read back at its tab number and passes. -/
theorem recordWritten_passes (s : State) (i : SlotId) {r : TabRecord} (ht : (s.slot i).tab = some r.tab)
    (hr : (s.slot i).record = some r) : passes r.tab ((s.recordWritten i).readMemory r.tab .asWritten) = some r := by
  have h : (s.recordWritten i).readMemory r.tab .asWritten = some (withCheck r) := by
    unfold State.recordWritten
    rw [ht, hr]
    exact store_read_self s r.tab (withCheck r)
  rw [h, passes_withCheck]

/-- A fetch whose record fails makes the tab DAMAGED and empties the slot (R32). -/
theorem finishFetch_fails (s : State) (i : SlotId) (t : Nat) {read : MemRead} (h : passes t (s.readMemory t read) = none) :
    s.finishFetch i t read = ((s.damageTab t).emptySlot i .tabDamaged).raise (.tab t .damaged) := by
  simp only [State.finishFetch, h]

end Sys2Proof.Machine
end

