-- ==== Sys2Proof/Laws/Receive.lean ====
section
/-! SUPPORT. What receiving a frame comes to (R143 to R147), said once for every kind. -/

namespace Sys2Proof.Machine

/-- A port after a request has been taken there (R146). -/
def takenPort (x : LanePort) (k : Kind) (tag : Byte) : LanePort :=
  { x with discarding := false, assembly := [], request := some { kind := k, tag := tag } }

/-- The delimiter and the taking of a request together. -/
theorem occupy_delimit (s : State) (p : Port) (k : Kind) (tag : Byte) :
    (s.delimit p).occupy p k tag = s.setPort p (takenPort (s.port p) k tag) := by
  simp [State.delimit, State.occupy, takenPort]

/-- A frame whose kind the role may send finds its port in some role. -/
theorem role_of_maySend {s : State} {p : Port} {k : Kind} (h : maySend (s.role p) k = true) : s.role p ≠ .unused := by
  intro e; simp [e, maySend] at h

/-- A request that passes every check of the port is taken and goes to its block (R145, R146). -/
theorem receive_taken {s : State} {p : Port} {k : Kind} {tag : Byte} {body : List Byte} (block : TakenRequest)
    (hb : body.length ≤ maxBody) (hr : maySend (s.role p) k = true) (hk : k ≠ .taken)
    (hp : s.phase = .ready ∨ k = .describe) (hs : (s.port p).request = none) :
    receive k block p tag body s = block p body (s.setPort p (takenPort (s.port p) k tag)) := by
  have hu := role_of_maySend hr
  have h1 : ¬ maxBody < body.length := Nat.not_lt.2 hb
  have hph : ¬ ((s.delimit p).phase = .starting ∧ k ≠ .describe) := by
    rcases hp with h | h <;> simp [h]
  have hreq : ((s.delimit p).port p).request = none := by simp [State.delimit, hs]
  have hrole : (s.delimit p).role p = s.role p := rfl
  unfold receive State.judgeKind State.judgeSlot
  rw [if_neg h1, if_neg hu, hrole, if_pos hr, if_neg hk, if_neg hph, hreq, occupy_delimit]
  rfl

end Sys2Proof.Machine
end

