-- ==== Sys2Proof/WellFormed.lean ====
section
/-! DEFINITION. Which terms of `Instr` spell an event that can come: the checks on a command's own operands. A command that
fails one has a meaning all the same (the switch judges whatever reaches it). -/

namespace Sys2Proof

open Sys2Proof.Machine

/-- A frame's body fits in a frame (R153). -/
def Instr.bodyFits (body : List Byte) : Bool := body.length ≤ maxBody

/-- The command is an event of its row: bodies fit in a frame, a discarded run is no frame (R143), a LINK-ERROR frame fails its
CRC (R144). -/
def Instr.wellFormed : Instr → Bool
  | .partReset _ | .configWalkNode _ => true
  | .runDiscarded _ run => !runIsFrame run
  | .linkError _ run => runIsFrame run && !crcMatches run
  | .kindNotPermitted _ _ _ body => Instr.bodyFits body
  | .order _ _ body | .void _ _ body | .readTab _ _ body | .listTabs _ _ body | .split _ _ body
  | .cancelSplit _ _ body | .tender _ _ body | .resume _ _ body | .availQuery _ _ body => Instr.bodyFits body
  | .hello _ _ body | .taken _ _ body | .start _ _ body | .bump _ _ body | .recallTicket _ _ body => Instr.bodyFits body
  | .loadPorts _ _ body | .loadGroups _ _ body | .loadTaxes _ _ body | .loadItems _ _ body | .loadStations _ _ body
  | .loadTimers _ _ body | .setStock _ _ body | .adjustStock _ _ body | .readItems _ _ body => Instr.bodyFits body
  | .collect _ _ body | .discardTab _ _ body | .cancelTicket _ _ body | .flushTabs _ _ body | .auditTabs _ _ body
  | .checkSplit _ _ body | .resetPort _ _ body | .saveConfig _ _ body | .noticeMask _ _ body | .status _ _ body
  | .describe _ _ body => Instr.bodyFits body
  | .ackTimerExpiry _ | .holdExpiry _ | .imagePeriodExpiry | .memoryOpStart | .fetchComplete _ | .fetchAbandoned
  | .writeBackComplete | .writeBackAbandoned _ | .auditReadComplete _ | .auditReadAbandoned | .splitCheckEnd _
  | .saveEraseComplete | .saveNodeVerified _ | .saveFault _ | .saveTimeout _ | .frameSent _ | .waiterExecutes _
  | .ticketSend _ | .urgentImage _ | .trickleImage _ | .availabilityOffer | .availabilityImageFrame _ | .noticeSend => true

end Sys2Proof
end

