-- ==== Sys2Proof/Tests/Slice0.lean ====
section
/-! SUPPORT. Tests: what `Instr.wellFormed` refuses; one small scene, with the witnesses that the statements' hypotheses can be met; and
single steps whose expected results come from the manual's own examples and tables. -/

namespace Sys2Proof.Tests

-- One theorem after another: many small kernel evaluations at once take a thread each.
set_option Elab.async false

open Sys2Proof.Machine Sys2Proof.Statements

/-! ### WellFormed: an ill-formed term for each check -/

theorem test_wellFormed_body_too_long : (Instr.order 1 0 (List.replicate 124 0)).wellFormed = false := by decide +kernel
theorem test_wellFormed_station_body_too_long : (Instr.taken 3 0 (List.replicate 124 0)).wellFormed = false := by
  decide +kernel
theorem test_wellFormed_office_body_too_long : (Instr.loadItems 0 0 (List.replicate 124 0)).wellFormed = false := by
  decide +kernel
theorem test_wellFormed_collect_body_too_long : (Instr.collect 0 0 (List.replicate 124 0)).wellFormed = false := by
  decide +kernel
theorem test_wellFormed_kind_body_too_long : (Instr.kindNotPermitted 1 0x60 0 (List.replicate 124 0)).wellFormed = false := by
  decide +kernel
/-- The frame of R154's example is a frame: it is no discarded run. -/
theorem test_wellFormed_run_is_frame :
    (Instr.runDiscarded 0 [0x06, 0x4F, 0x07, 0x05, 0xAF, 0x1E]).wellFormed = false := by decide +kernel
/-- The same frame's CRC matches (R154): it is no LINK-ERROR. -/
theorem test_wellFormed_crc_matches : (Instr.linkError 0 [0x06, 0x4F, 0x07, 0x05, 0xAF, 0x1E]).wellFormed = false := by
  decide +kernel
theorem test_wellFormed_link_error_no_frame : (Instr.linkError 0 [0x06, 0x4F, 0x07, 0x05]).wellFormed = false := by
  decide +kernel
theorem test_wellFormed_link_error : (Instr.linkError 0 [0x06, 0x4F, 0x07, 0x04, 0xAF, 0x1E]).wellFormed = true := by
  decide +kernel
theorem test_wellFormed_longest_body : (Instr.order 1 0 (List.replicate 123 0)).wellFormed = true := by decide +kernel

/-! ### The scene -/

/-- The state after a command; the state itself where the command has no next state. -/
def after (c : Instr) (s : State) : State :=
  match exec c s with
  | .next t => t
  | _ => s

/-- Port 0 the uplink; 1 and 2 tills of group 1, 5 a till of group 2; 3 and 4 stations; the rest UNUSED. -/
def table : Vector PortRole 24 :=
  ((((initialPortTable.set 1 (.till 0)).set 2 (.till 0)).set 3 .station).set 4 .station).set 5 (.till 1)

def rates : Vector Nat 4 := #v[0, 825, 1000, 0]

def line (n item q price : Nat) (c : TaxClass) (state : LineState) (ticket : Option Nat) : TabLine :=
  { number := n, item := item, quantity := q, price := price, taxClass := c, modifier := 0, state := state, ticket := ticket }

def record (tab : Nat) (lines : List TabLine) (plan : Option SplitPlan) (tenders : List TenderEntry) : TabRecord :=
  { tab := tab, group := 0, openingTill := 1, lines := lines, totals := totalsOf rates 1000 (chargesOf lines),
    plan := plan, tenders := tenders }

/-- Two lagers, one line of class 2: 1,800, tax 180, service 180, total 2,160. -/
def lagers : List TabLine := [line 1 11 2 900 2 .active none]

def halves (first second : Share) : SplitPlan := { mode := .byAmount, shares := [first, second] }

def share (due credited : Nat) (state : ShareState) : Share :=
  { due := due, components := none, credited := credited, state := state }

def tab1 : TabRecord :=
  record 1 [line 1 10 2 1050 1 .active (some 7), line 2 11 2 900 2 .active none, line 3 10 1 1050 1 .active (some 8)] none []
def tab2 : TabRecord := record 2 lagers (some (halves (share 1000 0 .unpaid) (share 1160 0 .unpaid))) []
def tab3 : TabRecord := record 3 lagers (some (halves (share 2160 2160 .paid) (share 0 0 .paid))) []
def tab5 : TabRecord := record 5 lagers (some (halves (share 1000 1000 .paid) (share 1160 0 .unpaid))) []
def tab8 : TabRecord := record 8 [line 1 11 2 900 2 .void none] none []

def ticket (n tab : Nat) (station : Port) (state : TxState) (started : Bool) (l : Nat) : Ticket :=
  { number := n, original := n, tab := tab, origin := 1, station := station, rush := false,
    lines := [{ item := 10, quantity := 1, modifier := 0, line := l }], revision := 1, state := state, started := started,
    everTransmitted := false }

/-- The grill: ticket 7 SHOWN and started, 8 SENT, 9 QUEUED, 10 STALE; its recall list holds ticket 30. -/
def grill : Station :=
  { Station.fresh with
    ready := true, resync := 0, sent := [8], ackTimer := some 4000,
    queue := [ticket 7 1 3 .shown true 1, ticket 8 1 3 .sent false 3, ticket 9 1 3 .queued false 5, ticket 10 1 3 .stale false 6],
    recalls := [{ ticket := ticket 30 3 3 .shown true 1, gone := false }] }

def cached (tab : Nat) (r : TabRecord) (dirty : Bool) : CacheSlot :=
  { state := .ready, tab := some tab, incoming := .none, record := some r, dirty := dirty, waits := [] }

def entry (state : TabState) (holder : Option Port) (paid : Bool) (live : Nat) (slot : Option SlotId) : DirEntry :=
  { state := state, group := some 0, holder := holder, paidInPart := paid, live := live, slot := slot }

/-- Tab 1 OPEN, 2 TENDERING held by port 1, 3 CLOSED, 4 DAMAGED, 5 TENDERING held by none and paid in part, 6 OPEN and not cached, 8 OPEN
with a total of 0; slots 5 to 7 EMPTY. -/
def scene : State :=
  { State.reset with
    now := 1000, phase := .ready, portTable := table, taxRates := rates, serviceRates := Vector.replicate 8 1000,
    check := .passed, freeList := [20, 21], closedList := [3],
    items := [(10, { price := 1050, taxClass := 1, station := some 3,
                     tracking := some { level := 20, stock := 12, sold := 8, lowMark := 3 } }),
              (11, { price := 900, taxClass := 2, station := none, tracking := none }),
              (12, { price := 450, taxClass := 1, station := some 4,
                     tracking := some { level := 5, stock := 0, sold := 5, lowMark := 2 } })],
    directory := [(1, entry .opened none false 4 (some 0)), (2, entry .tendering (some 1) false 0 (some 1)),
                  (3, entry .closed none true 0 (some 2)), (4, entry .damaged none false 0 none),
                  (5, entry .tendering none true 0 (some 3)), (6, entry .opened none false 0 none),
                  (8, entry .opened none false 0 (some 4))],
    slots := ((((((Vector.replicate 8 CacheSlot.cleared).set 0 (cached 1 tab1 true)).set 1 (cached 2 tab2 true)).set 2
      (cached 3 tab3 false)).set 3 (cached 5 tab5 false)).set 4 (cached 8 tab8 false)),
    holds := (Vector.replicate 24 none).set 1 (some { tab := 2, deadline := 60000 }),
    stations := (Vector.replicate 24 Station.fresh).set 3 grill, ticketCounter := 11 }

/-! ### Witnesses: the hypotheses of each statement can be met -/

theorem witness_StepRunsFrontCommand :
    ({ scene with pending := [.noticeSend, .memoryOpStart] }).pending = .noticeSend :: [.memoryOpStart] := rfl

/-- The tabs that the scene's directory lists. -/
def listed : List Nat := [1, 2, 3, 4, 5, 6, 8]

/-- The scene with every other tab in the free list and a SPLIT at the front of the queue. -/
def ledger : State :=
  { scene with freeList := allTabs.filter (fun t => t ∉ listed), pending := [.split 1 0 [1, 0, 1, 2]] }

theorem ledger_tablesInForm : TablesInForm ledger :=
  ⟨by decide +kernel, by decide +kernel, by decide +kernel, by decide +kernel⟩

theorem ledger_transmitRoom : TransmitRoom ledger := by unfold TransmitRoom; decide +kernel

theorem ledger_kitchenFits : KitchenFits ledger := by
  have h : ∀ p : Port, (ledger.station p).queue.length ≤ 24 ∧ (ledger.station p).sent.length ≤ (ledger.station p).window ∧
      (1 ≤ (ledger.station p).window ∧ (ledger.station p).window ≤ 4) ∧ (ledger.station p).recalls.length ≤ 4 := by
    decide +kernel
  exact ⟨fun p => ⟨(h p).1, (h p).2.1, (h p).2.2.1, (h p).2.2.2⟩, by decide +kernel, by decide +kernel, by decide +kernel,
    by decide +kernel⟩

theorem ledger_listsFit : ListsFit ledger :=
  ⟨by decide +kernel, by decide +kernel, by decide +kernel, by decide +kernel, fun h => absurd rfl h, by decide +kernel⟩

theorem ledger_stockBalances : StockBalances ledger := by
  unfold StockBalances
  intro e he t ht
  simp only [ledger, scene, List.mem_cons, List.not_mem_nil, or_false] at he
  rcases he with rfl | rfl | rfl <;> simp at ht <;> subst ht <;> exact ⟨rfl, by decide⟩

theorem recordFits_iff (r : TabRecord) : RecordFits r ↔ r.totals.total ≤ 9999999 ∧
    ∀ plan ∈ r.plan, ∀ x ∈ plan.shares, x.credited ≤ x.due := Iff.rfl

theorem ledger_recordsFit : RecordsFit ledger := by
  refine ⟨?_, fun e he => nomatch he⟩
  have h : ∀ i : SlotId, ∀ r ∈ (ledger.slot i).record, r.totals.total ≤ 9999999 ∧
    ∀ plan ∈ r.plan, ∀ x ∈ plan.shares, x.credited ≤ x.due := by decide +kernel
  exact fun i r hr => h i r hr

/-- A tab that the directory lists, or one whose entry is the formatted one. -/
theorem ledger_dir (t : Nat) : t ∈ listed ∨ t ∉ listed ∧ ledger.dir t = DirEntry.formatted := by
  by_cases h : t ∈ listed
  · exact .inl h
  · refine .inr ⟨h, ?_⟩
    simp only [listed, List.mem_cons, List.not_mem_nil, or_false, not_or] at h
    obtain ⟨h1, h2, h3, h4, h5, h6, h8⟩ := h
    simp [State.dir, ledger, scene, tableFind, Ne.symm h1, Ne.symm h2, Ne.symm h3, Ne.symm h4, Ne.symm h5, Ne.symm h6,
      Ne.symm h8]

theorem ledger_slots (i : SlotId) : SlotSound (ledger.slot i) := by
  have h : ∀ i : SlotId, ((ledger.slot i).state = .empty → ledger.slot i = CacheSlot.cleared) ∧
      ((ledger.slot i).state ≠ .empty → (ledger.slot i).tab ≠ none) ∧
      ((ledger.slot i).state = .ready ∨ (ledger.slot i).state = .writing →
        ∃ r ∈ (ledger.slot i).record, (ledger.slot i).tab = some r.tab) ∧
      (ledger.slot i).incoming = .none ∧ (ledger.slot i).waits = [] := by decide +kernel
  obtain ⟨a, b, c, d, e⟩ := h i
  exact ⟨a, b, c, fun _ => d, fun t ht => by simp [d] at ht, fun w hw => by simp [e] at hw⟩

theorem ledger_tablesAgree : TablesAgree ledger := by
  have cached : ∀ i : SlotId, ∀ u ∈ (ledger.slot i).tab, u ∈ listed := by decide +kernel
  have coming : ∀ i : SlotId, (ledger.slot i).incoming = .none := by decide +kernel
  have live : ∀ x ∈ ledger.liveTickets, x.tab ∈ listed := by decide +kernel
  have free : ∀ t ∈ listed, (ledger.dir t).state ≠ .free := by decide +kernel
  have closed : ∀ t ∈ ledger.closedList, t ∈ listed := by decide +kernel
  constructor
  case freeList =>
    refine ⟨List.Nodup.filter (fun t => decide (t ∉ listed)) (List.nodup_range' 1 (n := 2048)), fun t => ?_⟩
    have m : t ∈ ledger.freeList ↔ isTab t = true ∧ t ∉ listed := by
      have r : t ∈ allTabs ↔ isTab t = true := by simp [allTabs, List.mem_range'_1, isTab]; omega
      rw [show ledger.freeList = allTabs.filter (fun t => t ∉ listed) from rfl, List.mem_filter, r]; simp
    rw [m]
    obtain h | ⟨n, h⟩ := ledger_dir t
    · exact ⟨fun e => absurd h e.2, fun e => absurd e.2 (free t h)⟩
    · simp [n, h, DirEntry.formatted]
  case closedList =>
    refine ⟨by decide, fun t => ?_⟩
    obtain h | ⟨n, h⟩ := ledger_dir t
    · revert t; decide +kernel
    · simp [h, DirEntry.formatted]; exact fun m => n (closed t m)
  case free =>
    intro t ht
    obtain h | ⟨n, h⟩ := ledger_dir t
    · have e : ∀ t ∈ listed, ¬ ((ledger.dir t).state = .free ∨ isTab t = false ∨ ledger.phase = .starting) := by
        decide +kernel
      exact absurd ht (e t h)
    · exact h
  case holder =>
    intro t p hp
    obtain h | ⟨n, h⟩ := ledger_dir t
    · have e : ∀ t ∈ listed, ∀ p ∈ (ledger.dir t).holder,
          (ledger.dir t).state = .tendering ∧ (ledger.hold p).map Hold.tab = some t := by decide +kernel
      exact e t h p hp
    · simp [h, DirEntry.formatted] at hp
  case hold =>
    have e : ∀ p : Port, ∀ h ∈ ledger.hold p, (ledger.dir h.tab).holder = some p := by decide +kernel
    exact fun p h hp => e p h hp
  case live =>
    intro t
    obtain h | ⟨n, h⟩ := ledger_dir t
    · revert t; decide +kernel
    · have e : ledger.liveTickets.filter (fun x => x.tab = t) = [] :=
        List.filter_eq_nil_iff.mpr (fun x hx => by simp; exact fun k => n (k ▸ live x hx))
      simp [h, e, DirEntry.formatted]
  case recalls => decide +kernel
  case slot =>
    intro t
    obtain h | ⟨n, h⟩ := ledger_dir t
    · revert t; decide +kernel
    · intro i; simp [h, DirEntry.formatted, coming]; exact fun k => n (cached i t k)
  case damaged =>
    intro t
    obtain h | ⟨n, h⟩ := ledger_dir t
    · revert t; decide +kernel
    · simp [h, DirEntry.formatted]
  case slots => exact ledger_slots
  case operations => exact ⟨by decide +kernel, by decide +kernel, by decide +kernel, fun t ht => nomatch ht⟩

/-- The step from the ledger with a SPLIT at the front of the queue completes: the hypotheses of the invariants that every step keeps. -/
theorem witness_StepKeeps : Good ledger ∧ Completes ledger :=
  ⟨⟨ledger_tablesInForm, ledger_transmitRoom, ledger_kitchenFits, ledger_listsFit, ledger_stockBalances, ledger_recordsFit,
    ledger_tablesAgree⟩, ⟨_, rfl⟩⟩

/-- A record at its limits, which the memory port brings: total 9,999,999, and a share credited its whole due. -/
def fullRecord : TabRecord :=
  { record 6 lagers (some (halves (share 9999999 9999999 .paid) (share 0 0 .paid))) [] with
    totals := { zeroTotals with total := 9999999 } }

theorem witness_StepKeeps_record :
    broughtRecord (.fetchComplete (.delivers (withCheck fullRecord))) = some fullRecord ∧
    RecordFits fullRecord :=
  ⟨rfl, (recordFits_iff _).mpr (by decide +kernel)⟩

/-- A request waits in port 1's slot. -/
def occupied : State := scene.setPort 1 { scene.port 1 with request := some { kind := .void, tag := 4 } }

theorem witness_FramesTurnedAway_unused :
    frameCommand 9 0 [] .hello = some (.hello 9 0 []) ∧ ([] : List Byte).length ≤ maxBody ∧ scene.role 9 = .unused := by
  decide +kernel
theorem witness_FramesTurnedAway_role :
    frameCommand 1 0 [] .status = some (.status 1 0 []) ∧ scene.role 1 ≠ .unused ∧ maySend (scene.role 1) .status = false := by
  decide +kernel
theorem witness_FramesTurnedAway_starting :
    let s := { scene with phase := .starting }
    frameCommand 0 0 [] .status = some (.status 0 0 []) ∧ maySend (s.role 0) .status = true ∧ Kind.status ≠ .taken ∧
      Kind.status ≠ .describe ∧ s.phase = .starting := by decide +kernel
theorem witness_FramesTurnedAway_busy :
    frameCommand 1 0 [1, 0] .resume = some (.resume 1 0 [1, 0]) ∧ maySend (occupied.role 1) .resume = true ∧
      Kind.resume ≠ .taken ∧ occupied.phase = .ready ∧ (occupied.port 1).request ≠ none := by decide +kernel

theorem witness_BadRuns_linkError :
    runIsFrame [5, 0x18, 0, 0, 0] = true ∧ crcMatches [5, 0x18, 0, 0, 0] = false ∧ scene.role 1 ≠ .unused := by decide +kernel
theorem witness_BadRuns_kind :
    ([] : List Byte).length ≤ maxBody ∧ scene.role 1 ≠ .unused ∧
      ∀ k ∈ allKinds, kindOfByte 0x60 = some k → maySend (scene.role 1) k = false := by decide +kernel
theorem witness_BadRuns_run : runIsFrame ((scene.port 1).assembly ++ [4, 1, 2, 3]) = false := by decide +kernel

/-- Port 1 is sending the reply of its slot, with an offer and an answer behind it. -/
def sendingPort : LanePort :=
  { LanePort.fresh with
    request := some { kind := .void, tag := 4 }, sending := some (replyFrame .void 4 .ok []),
    queue := [{ kind := .availability, tag := 1, body := [0, 0], source := .offer },
              { kind := .reply, tag := 9, body := [0x0A, 0x10], source := .answer }] }

theorem witness_FrameSent :
    ((scene.setPort 1 sendingPort).port 1).sending = some (replyFrame .void 4 .ok []) ∧
    ((scene.setPort 1 sendingPort).port 1).queue = sendingPort.queue.take 1 ++
      { kind := .reply, tag := 9, body := [0x0A, 0x10], source := .answer } :: [] ∧
    (∀ h ∈ sendingPort.queue.take 1, h.kind ≠ .reply) := by decide +kernel
theorem witness_FrameSent_no_reply :
    let s := scene.setPort 1 { sendingPort with queue := sendingPort.queue.take 1 }
    (s.port 1).sending = some (replyFrame .void 4 .ok []) ∧ ∀ h ∈ (s.port 1).queue, h.kind ≠ .reply := by decide +kernel

theorem witness_PartReset : scene.save = none := rfl
theorem witness_PartReset_saving :
    let s := { scene with save := some { stage := .writing 6, began := 900 } }
    s.save = some { stage := .writing 6, began := 900 } ∧ s.saveChain[6]? = some (flashNode 7 []) ∧
    ({ scene with save := some { stage := .erasing, began := 900 } }).save = some { stage := .erasing, began := 900 } := by
  decide +kernel

/-- STARTING with one good node in the flash. -/
def starting (flash : List Byte) : State := { scene with phase := .starting, flash := flash, walkAt := 0 }

theorem witness_ConfigWalk_taxes : (starting (flashNode 3 (rateBytes [0, 825, 1000, 3000]))).phase = .starting ∧
    readNode (starting (flashNode 3 (rateBytes [0, 825, 1000, 3000]))).flash 0 =
      some (.taxes #v[0, 825, 1000, 3000], 13) := by decide +kernel
theorem witness_ConfigWalk_groups :
    readNode (starting (flashNode 2 (rateBytes [0, 1, 2, 3, 4, 5, 6, 7]))).flash 0 =
      some (.groups #v[0, 1, 2, 3, 4, 5, 6, 7], 21) := by decide +kernel
theorem witness_ConfigWalk_timers :
    readNode (starting (flashNode 5 (timerBytes Timers.defaults))).flash 0 = some (.timers Timers.defaults, 11) := by
  decide +kernel
/-- A PORTS node's body that makes every port 1 to 23 UNUSED, and a STATIONS node's with a window of 1 for each. -/
def portsBody : List Byte := 23 :: stationPorts.flatMap (fun p => num1 p.val ++ [0, 0])
def stationsBody : List Byte := 23 :: stationPorts.flatMap (fun p => num1 p.val ++ [0, 0, 1])

theorem witness_ConfigWalk_ports :
    readNode (starting ([] ++ flashNode 1 portsBody ++ [])).flash 0 =
      some (.ports (stationPorts.map (fun p => (p, .unused))), 75) := by
  have h : readNodeBody 1 portsBody = some (.ports (stationPorts.map (fun p => (p, .unused)))) := by decide +kernel
  have e := readNode_flashNode [] [] 1 portsBody (by decide) (by decide +kernel) (by decide +kernel)
  rw [h] at e; exact e
theorem witness_ConfigWalk_items :
    readNode (starting (flashNode 6 [1, 9, 0, 0, 0, 0, 0, 0, 0, 0, 0, 0])).flash 0 = some (.items [(9, none)], 17) := by
  decide +kernel
theorem witness_ConfigWalk_stations :
    readNode (starting ([] ++ flashNode 4 stationsBody ++ [])).flash 0 =
      some (.stations (stationPorts.map (fun p => (p, { alternate := none, balance := false, window := 1 }))), 98) := by
  have h : readNodeBody 4 stationsBody =
      some (.stations (stationPorts.map (fun p => (p, { alternate := none, balance := false, window := 1 })))) := by
    decide +kernel
  have e := readNode_flashNode [] [] 4 stationsBody (by decide) (by decide +kernel) (by decide +kernel)
  rw [h] at e; exact e
theorem witness_ConfigWalk_station_entries :
    let e : StationEntry := { alternate := none, balance := false, window := 1 }
    stationPorts.map (fun p => (p, e)) = [] ++ (1, e) :: stationPorts.tail.map (fun p => (p, e)) ∧
    (∀ x ∈ stationPorts.tail.map (fun p => (p, e)), x.1 ≠ 1) ∧ ∀ x ∈ stationPorts.map (fun p => (p, e)), x.1 ≠ 0 := by
  decide +kernel
theorem witness_ConfigWalk_end :
    readNode (starting []).flash 0 = none ∧ readNode (starting (flashNode 7 [])).flash 0 = some (.last, 5) := by
  decide +kernel

theorem witness_SavedNodes : ([] : List Byte).length + 100 ≤ Config.flashBytes ∧
    (∀ c : Fin 4, rates[c.val] ≤ 3000) ∧ (∀ c : Fin 8, (Vector.replicate 8 3000 : Vector Nat 8)[c.val] ≤ 3000) ∧
    10 ≤ Timers.defaults.hold ∧ Timers.defaults.hold ≤ 600 ∧ 5 ≤ Timers.defaults.ack ∧ Timers.defaults.ack ≤ 100 ∧
    5 ≤ Timers.defaults.image ∧ Timers.defaults.image ≤ 300 ∧ Timers.defaults.bump ≤ 30 := by decide +kernel

/-- Two burgers, one lager and one line of fries, of which there are none. -/
def threeLines : List OrderLine :=
  [{ item := 10, quantity := 2, modifier := 0 }, { item := 11, quantity := 1, modifier := 0 },
   { item := 12, quantity := 1, modifier := 0 }]

theorem witness_AcceptedLines :
    (scene.planOrder 0 tab1.lines threeLines).accepted ≠ [] ∧
    ∃ item t, scene.item 10 = some item ∧ item.tracking = some t := ⟨by decide +kernel, _, _, rfl, rfl⟩
/-- No taxes and no service: a total is the sum of the nets. -/
def untaxed : State := { scene with taxRates := Vector.replicate 4 0, serviceRates := Vector.replicate 8 0 }

/-- The boundaries: the 48th line, all 12 of a tracked item, and a total of 9,999,999. -/
theorem witness_AcceptedLines_boundaries :
    let full := (List.range' 1 47).map (fun n => line n 11 1 1 0 .active none)
    let dear := [line 1 11 1 9999099 0 .active none]
    (untaxed.planOrder 0 full [{ item := 11, quantity := 1, modifier := 0 }]).accepted.length = 1 ∧ full.length = 47 ∧
    ((untaxed.planOrder 0 [] [{ item := 10, quantity := 12, modifier := 0 }]).accepted.map (fun l => l.quantity)).sum = 12 ∧
    (untaxed.planOrder 0 dear [{ item := 11, quantity := 1, modifier := 0 }]).accepted.length = 1 ∧
    (totalsOf untaxed.taxRates 0 (chargesOf dear)).total + 900 = 9999999 := by decide +kernel
/-- Nine burgers are two tickets of the grill, of 8 lines and of 1. -/
theorem witness_AcceptedLines_tickets :
    (scene.formTickets (passedLines (scene.planOrder 0 [] (List.replicate 9
      { item := 10, quantity := 1, modifier := 0 })).checks)).map (fun x => (x.1, x.2.length)) = [(3, 8), (3, 1)] := by
  decide +kernel

def orderBody (tab : Byte) (lines : List Byte) : List Byte := [tab, 0, 0, BitVec.ofNat 8 (lines.length / 4)] ++ lines
def threeBytes : List Byte := [10, 0, 2, 0, 11, 0, 1, 0, 12, 0, 1, 0]

theorem witness_NewOrder :
    (orderBody 0 threeBytes).length ≤ maxBody ∧ Admitted scene 1 .order ∧ scene.role 1 = .till 0 ∧
    readOrder (orderBody 0 threeBytes) = some (0, false, threeLines) ∧ scene.freeList = 20 :: [21] ∧
    scene.victim = some 5 ∧ scene.victimDirty 5 = false ∧ (scene.planOrder 0 [] threeLines).accepted ≠ [] ∧
    (placedTickets (scene.planOrder 0 [] threeLines)).length = 1 := by
  decide +kernel
theorem witness_NewOrder_nothing :
    Admitted scene 1 .order ∧ readOrder (orderBody 0 [12, 0, 1, 0]) = some (0, false, [{ item := 12, quantity := 1, modifier := 0 }]) ∧
    (scene.planOrder 0 [] [{ item := 12, quantity := 1, modifier := 0 }]).accepted = [] := by decide +kernel

theorem witness_OrderOnOpenTab :
    (orderBody 1 threeBytes).length ≤ maxBody ∧ Admitted scene 1 .order ∧
    readOrder (orderBody 1 threeBytes) = some (1, false, threeLines) ∧ AtReadySlot scene 1 1 0 tab1 ∧
    (scene.dir 1).state = .opened ∧ (scene.planOrder tab1.group tab1.lines threeLines).accepted ≠ [] ∧
    (placedTickets (scene.planOrder tab1.group tab1.lines threeLines)).length = 1 := by decide +kernel
theorem witness_OrderOnOpenTab_nothing :
    readOrder (orderBody 1 [12, 0, 1, 0]) = some (1, false, [{ item := 12, quantity := 1, modifier := 0 }]) ∧
    (scene.planOrder tab1.group tab1.lines [{ item := 12, quantity := 1, modifier := 0 }]).accepted = [] := by decide +kernel

/-- Line 2 has no ticket; line 1's ticket is started; line 3's is live and unstarted. -/
theorem witness_VoidChangesLine :
    Admitted scene 1 .void ∧ (2 : Byte) ≠ 0 ∧ AtReadySlot scene 1 (read2 1 0) 0 tab1 ∧ (scene.dir (read2 1 0)).state = .opened ∧
    (tab1.lines.find? (fun y => y.number = (2 : Byte).toNat && y.state = .active)).isSome = true ∧
    (scene.totalsWithout tab1 2).total ≤ 9999999 := by decide +kernel
theorem witness_VoidChangesLine_waste :
    (tab1.lines.find? (fun y => y.number = 1 && y.state = .active)).isSome = true ∧
    (scene.totalsWithout tab1 1).total ≤ 9999999 ∧ (scene.findLineTicket 1 1 7).map (fun u => u.started) = some true := by
  decide +kernel
theorem witness_VoidChangesLine_strike :
    (tab1.lines.find? (fun y => y.number = 3 && y.state = .active)).isSome = true ∧
    (scene.totalsWithout tab1 3).total ≤ 9999999 ∧ (scene.findLineTicket 1 3 8).map (fun u => u.started) = some false ∧
    ((scene.item 10).bind Item.tracking).map (fun k => decide (1 ≤ k.sold)) = some true := by decide +kernel
/-- Line 3's ticket carries another line too: SENT at the grill, and in the overflow list; and its one line alone, ever transmitted. -/
def twoLineTicket : Ticket :=
  { ticket 8 1 3 .sent false 3 with
    everTransmitted := true,
    lines := [{ item := 10, quantity := 1, modifier := 0, line := 3 }, { item := 10, quantity := 1, modifier := 0, line := 4 }] }
theorem witness_VoidChangesLine_strikes :
    ((scene.setStation 3 { grill with queue := [twoLineTicket] }).findLineTicket 1 3 8 = some twoLineTicket ∧
      twoLineTicket.started = false ∧ twoLineTicket.lines.filter (fun y => y.line ≠ 3) ≠ [] ∧ twoLineTicket.state = .sent) ∧
    ({ scene.setStation 3 Station.fresh with overflow := [twoLineTicket] }).findLineTicket 1 3 8 = some twoLineTicket ∧
    (ticket 8 1 3 .sent false 3).lines.filter (fun y => y.line ≠ 3) = [] ∧ (scene.port 3).hasRoom = true ∧
    scene.role 3 = .station := by decide +kernel
/-- Tab 1 has no line 9 and tab 8's line 1 is VOID; with every line at 9,000,000 tab 1's total without line 3 is out of range. -/
theorem witness_VoidChangesLine_refused :
    (∀ y ∈ tab1.lines, y.number = (9 : Byte).toNat → y.state ≠ .active) ∧
    (AtReadySlot scene 1 (read2 8 0) 4 tab8 ∧ (scene.dir (read2 8 0)).state = .opened ∧
      ∀ y ∈ tab8.lines, y.number = (1 : Byte).toNat → y.state ≠ .active) ∧
    (let r := { tab1 with lines := tab1.lines.map (fun y => { y with price := 9000000 }) }
     AtReadySlot (scene.setSlot 0 (cached 1 r true)) 1 (read2 1 0) 0 r ∧ (∃ y ∈ r.lines, y.number = 3 ∧ y.state = .active) ∧
     9999999 < ((scene.setSlot 0 (cached 1 r true)).totalsWithout r 3).total) := by decide +kernel

theorem witness_ReadTab :
    Admitted scene 1 .readTab ∧ (6 : Byte).toNat ≤ 6 ∧ isTab (read2 1 0) = true ∧ scene.sameGroup 1 (read2 1 0) = true ∧
    (scene.dir (read2 1 0)).state ≠ .free ∧ (scene.dir (read2 1 0)).state ≠ .damaged ∧ (scene.dir (read2 1 0)).slot = some 0 ∧
    (scene.slot 0).state = .ready ∧ (scene.slot 0).tab = some (read2 1 0) ∧ (scene.slot 0).record = some tab1 ∧
    (scene.slot 0).waits = [] ∧ (1 : Port) ∉ scene.engineWait := by decide +kernel

theorem office_admitted : OfficeAdmitted scene := by decide +kernel

theorem witness_ReadingRequests :
    Admitted scene 1 .listTabs ∧ isTab (read2 1 0) = true ∧ readSelector 0 = some none ∧ (1 : Byte).toNat ≤ 8 ∧
    listGroup (scene.role 1) (1 : Byte).toNat = some (some 0) ∧ OfficeAdmitted scene ∧
    isItemCode (read2 0xFF 3) = true := by decide +kernel

theorem witness_Describe : scene.role 0 = .uplink ∧ (scene.port 0).request = none ∧
    ({ scene with startUp := 0x3F#8 }).startUp = 0x3F#8 := by decide +kernel

theorem witness_RequestJudgement :
    (scene.dir 1).state = .opened ∧ ((scene.dir 2).state = .tendering ∧ (scene.dir 2).holder = some 1) ∧
    ((scene.dir 2).state = .tendering ∧ (scene.dir 2).holder = some 1 ∧ (1 : Port) ≠ 2) ∧
    ((scene.dir 5).state = .tendering ∧ (scene.dir 5).holder = none) ∧ (scene.dir 3).state = .closed := by decide +kernel
/-- Port 2's VOID of a tab that port 1 holds is refused at its slot; tab 9 is FREE, tab 4 DAMAGED, tab 1 of another group than port 5. -/
theorem witness_RequestRefused :
    (ReachesCache scene 2 .void 0 [2, 0, 1] (.void 2 0 [2, 0, 1]) 2 (.void 2 1) ∧ AtReadySlot scene 2 2 1 tab2 ∧
      rowOf .void = some .orderOrVoid ∧ scene.judgeState .orderOrVoid 2 2 = some .tabHeld) ∧
    (Arrives scene 2 .resume 0 [9, 0] (.resume 2 0 [9, 0]) 9 (.resume 9) ∧ (scene.dir 9).state = .free) ∧
    (Arrives scene 2 .resume 0 [1, 8] (.resume 2 0 [1, 8]) 2049 (.resume 2049) ∧ isTab 2049 = false) ∧
    (Arrives scene 2 .resume 0 [4, 0] (.resume 2 0 [4, 0]) 4 (.resume 4) ∧ isTab 4 = true ∧ (scene.dir 4).state = .damaged) ∧
    (Arrives scene 5 .resume 0 [1, 0] (.resume 5 0 [1, 0]) 1 (.resume 1) ∧ scene.sameGroup 5 1 = false) ∧
    (Admitted scene 2 .resume ∧ rowOf .resume ≠ none ∧ tabRequestOf .resume [1] = none) :=
  ⟨⟨by decide +kernel, by decide +kernel, rfl, by decide +kernel⟩, by decide +kernel, by decide +kernel, by decide +kernel,
    by decide +kernel, by decide +kernel, nofun, by decide +kernel⟩

theorem witness_Apportion : ((0 : Nat) = 0 ∨ [1, 1].sum = 0) ∧ (5 : Nat) ≠ 0 ∧ [1, 0, 3].sum ≠ 0 ∧ 1 < [1, 0, 3].length ∧
    [1, 0, 3].getD 1 0 = 0 := by decide

theorem tab1_sound : RecordSound tab1 := ⟨by decide +kernel, by decide +kernel, by decide +kernel, by decide +kernel⟩

def byItemSpec : SplitSpec :=
  .byItem 2 .shareAll [{ line := 2, share := 1, portions := 1 }, { line := 2, share := 2, portions := 2 }]

theorem witness_PlanDues : RecordSound tab1 ∧ SpecAdmitted byItemSpec ∧ (∃ plan, makePlan byItemSpec tab1 = .plan plan ∧
    plan.mode = .byItem) ∧ SpecAdmitted (.even 16) ∧ (∃ plan, makePlan (.even 16) tab1 = .plan plan) ∧
    SpecAdmitted (.byAmount 2 [tab1.totals.total]) ∧
    ∃ plan, makePlan (.byAmount 2 [tab1.totals.total]) tab1 = .plan plan :=
  ⟨tab1_sound, ⟨by decide, by decide, by decide⟩, ⟨_, rfl, rfl⟩, ⟨by decide, by decide⟩, ⟨_, rfl⟩,
    ⟨by decide, by decide, rfl⟩, ⟨_, rfl⟩⟩

theorem witness_ByAmount : [1000, 1160].sum ≤ tab2.totals.total ∧ [1000, 1160].sum = tab2.totals.total ∧
    tab1.totals.total < [9999999].sum := by decide +kernel
theorem witness_ByAmount_over :
    let body : List Byte := [1, 0, 3, 2, 0x7F, 0x96, 0x98]
    body.length ≤ maxBody ∧ Admitted scene 2 .split ∧ scene.check = .passed ∧
    readSplit body = some (1, .byAmount 2 [9999999]) ∧ AtReadySlot scene 2 1 0 tab1 ∧ (scene.dir 1).state = .opened ∧
    scene.holdsAnother 2 1 = false ∧ tab1.totals.total < [9999999].sum := by decide +kernel

theorem witness_Split_new :
    Admitted scene 2 .split ∧ scene.check = .passed ∧ readSplit [1, 0, 1, 2] = some (1, .even 2) ∧
    AtReadySlot scene 2 1 0 tab1 ∧
    makePlan (.even 2) tab1 = .plan { mode := .even, shares := evenShares tab1.totals 2 } ∧
    (scene.dir 1).state = .opened ∧ scene.holdsAnother 2 1 = false ∧
    planAllPaid { mode := .even, shares := evenShares tab1.totals 2 } = false := by decide +kernel
theorem witness_Split_replacement :
    Admitted scene 1 .split ∧ scene.check = .passed ∧ readSplit [2, 0, 1, 2] = some (2, .even 2) ∧
    AtReadySlot scene 1 2 1 tab2 ∧
    makePlan (.even 2) tab2 = .plan { mode := .even, shares := evenShares tab2.totals 2 } ∧
    (scene.dir 2).state = .tendering ∧ (scene.dir 2).holder = some 1 ∧ (scene.dir 2).paidInPart = false ∧
    scene.hold 1 = some { tab := 2, deadline := 60000 } := by decide +kernel

theorem witness_ZeroTotalSplit :
    (Admitted scene 2 .split ∧ scene.check = .passed ∧ readSplit [8, 0, 1, 3] = some (8, .even 3) ∧
    AtReadySlot scene 2 8 4 tab8 ∧
    makePlan (.even 3) tab8 = .plan { mode := .even, shares := evenShares tab8.totals 3 } ∧
    (scene.dir 8).state = .opened ∧ scene.holdsAnother 2 8 = false ∧ tab8.totals.total = 0) ∧ RecordSound tab8 :=
  ⟨by decide +kernel, ⟨by decide +kernel, by decide +kernel, by decide +kernel, by decide +kernel⟩⟩

/-- The scene with tab 2 paid in part. -/
def partPaid : State := scene.setDir 2 (entry .tendering (some 1) true 0 (some 1))

theorem witness_CancelSplit :
    (Admitted scene 1 .cancelSplit ∧ AtReadySlot scene 1 (read2 2 0) 1 tab2 ∧ (scene.dir 2).state = .tendering ∧
      (scene.dir 2).holder = some 1 ∧ (scene.dir 2).paidInPart = false) ∧
    Admitted partPaid 1 .cancelSplit ∧ AtReadySlot partPaid 1 (read2 2 0) 1 tab2 ∧ (partPaid.dir 2).state = .tendering ∧
      (partPaid.dir 2).holder = some 1 ∧ (partPaid.dir 2).paidInPart = true := by decide +kernel

/-- Port 1's SPLIT of tab 2, which it holds: paid in part, and BY-AMOUNT over the total; port 2's BY-AMOUNT over the total of tab 1. -/
theorem witness_Split_refused :
    (Admitted partPaid 1 .split ∧ partPaid.check = .passed ∧ AtReadySlot partPaid 1 2 1 tab2 ∧
      (partPaid.dir 2).state = .tendering ∧ (partPaid.dir 2).holder = some 1 ∧ (partPaid.dir 2).paidInPart = true ∧
      partPaid.hold 1 = some { tab := 2, deadline := 60000 }) ∧
    readSplit [2, 0, 3, 2, 0x7F, 0x96, 0x98] = some (2, .byAmount 2 [9999999]) ∧
    makePlan (.byAmount 2 [9999999]) tab2 = .refused .overTotal 0 2160 ∧
    makePlan (.byAmount 2 [9999999]) tab1 = .refused .overTotal 0 tab1.totals.total := by decide +kernel
/-- An entry that names line 9, which tab 1 has not, behind one that names line 2; under REFUSE lines 1 and 3 unlisted, and none. -/
theorem witness_Split_refusals :
    let e (l : Nat) : Assignment := { line := l, share := 1, portions := 1 }
    let named (x : Assignment) : Prop := ∃ l ∈ tab1.lines, l.number = x.line ∧ l.state = .active
    (named (e 2) ∧ ¬ named (e 9)) ∧
    (tab1.lines = [] ++ line 1 10 2 1050 1 .active (some 7) :: tab1.lines.tail ∧ ¬ ∃ x ∈ [e 2], x.line = 1) ∧
    ∀ l ∈ tab1.lines, l.state = .active → ∃ x ∈ [e 1, e 2, e 3], x.line = l.number := by decide +kernel
/-- R120: the refusal of a holder's SPLIT carries the total, and the deadline is restarted by the default 120 s of R167 (R104). -/
theorem test_split_refused_tendering :
    ((after (.split 1 5 [2, 0, 3, 2, 0x7F, 0x96, 0x98]) scene).port 1).sending.map TxFrame.body =
      some (Status.overTotal.byte :: Kind.split.byte :: Detail.bytes { tab := 2, figure := 2160 }) ∧
    (after (.split 1 5 [2, 0, 3, 2, 0x7F, 0x96, 0x98]) scene).hold 1 = some { tab := 2, deadline := 1000 + 120 * 1000 } := by
  decide +kernel

/-- Tab 5's last share is UNPAID: port 1 holds tab 5 here, and its tender closes the tab. -/
def lastShare : State := (scene.setHold 1 (some { tab := 5, deadline := 60000 })).setDir 5 (entry .tendering (some 1) true 0 (some 3))

theorem witness_Tender :
    Admitted scene 1 .tender ∧ readTender [2, 0, 1, 1, 0xE8, 3, 0] = some { tab := 2, share := 1, method := .cash, amount := 1000 } ∧
    AtReadySlot scene 1 2 1 tab2 ∧ (scene.dir 2).state = .tendering ∧ (scene.dir 2).holder = some 1 ∧
    scene.hold 1 = some { tab := 2, deadline := 60000 } ∧
    tab2.plan = some (halves (share 1000 0 .unpaid) (share 1160 0 .unpaid)) ∧
    (halves (share 1000 0 .unpaid) (share 1160 0 .unpaid)).shares[1 - 1]? = some (share 1000 0 .unpaid) ∧
    reserveHolds tab2 (halves (share 1000 0 .unpaid) (share 1160 0 .unpaid)) (share 1000 0 .unpaid) .cash 1000 = true := by
  decide +kernel
theorem witness_Tender_closing :
    Admitted lastShare 1 .tender ∧ readTender [5, 0, 2, 2, 0x88, 4, 0] = some { tab := 5, share := 2, method := .card, amount := 1160 } ∧
    AtReadySlot lastShare 1 5 3 tab5 ∧ (lastShare.dir 5).state = .tendering ∧ (lastShare.dir 5).holder = some 1 ∧
    lastShare.hold 1 = some { tab := 5, deadline := 60000 } ∧
    tab5.plan = some (halves (share 1000 1000 .paid) (share 1160 0 .unpaid)) ∧
    (halves (share 1000 1000 .paid) (share 1160 0 .unpaid)).shares[2 - 1]? = some (share 1160 0 .unpaid) ∧
    reserveHolds tab5 (halves (share 1000 1000 .paid) (share 1160 0 .unpaid)) (share 1160 0 .unpaid) .card 1160 = true ∧
    planAllPaid (halves (share 1000 1000 .paid) (share 1160 1160 .paid)) = true := by decide +kernel
/-- R133's checks in turn: share 3 of 2; a share that is PAID; the last entry of the tender list kept for the other share; a CARD amount. -/
theorem witness_Tender_refused :
    TenderRefused { tab := 2, share := 3, method := .cash, amount := 1 } tab2
      (halves (share 1000 0 .unpaid) (share 1160 0 .unpaid)) .parse { tab := 2, index := 3, figure := 2 } ∧
    TenderRefused { tab := 5, share := 1, method := .cash, amount := 1 } tab5
      (halves (share 1000 1000 .paid) (share 1160 0 .unpaid)) .sharePaid { tab := 5, index := 1 } ∧
    TenderRefused { tab := 2, share := 1, method := .cash, amount := 999 }
      { tab2 with tenders := List.replicate 30 (tenderEntry { tab := 2, share := 1, method := .cash, amount := 1 } (share 1 0 .unpaid)) }
      (halves (share 1000 0 .unpaid) (share 1160 0 .unpaid)) .tabState { tab := 2, index := 1, figure := 2, second := 2 } ∧
    TenderRefused { tab := 2, share := 1, method := .card, amount := 999 } tab2
      (halves (share 1000 0 .unpaid) (share 1160 0 .unpaid)) .amountMismatch { tab := 2, index := 1, figure := 1000 } :=
  ⟨.inl (by decide), .inr ⟨_, rfl, .inl (by decide)⟩, .inr ⟨_, rfl, .inr (.inl (by decide +kernel))⟩,
    .inr ⟨_, rfl, .inr (.inr (by decide +kernel))⟩⟩

theorem witness_Resume :
    (Admitted scene 2 .resume ∧ AtReadySlot scene 2 (read2 5 0) 3 tab5 ∧ (scene.dir 5).state = .tendering ∧
      (scene.dir 5).holder = none ∧ scene.holdsAnother 2 5 = false) ∧
    Admitted scene 1 .resume ∧ AtReadySlot scene 1 (read2 2 0) 1 tab2 ∧ (scene.dir 2).state = .tendering ∧
      (scene.dir 2).holder = some 1 ∧ scene.hold 1 = some { tab := 2, deadline := 60000 } := by decide +kernel

theorem witness_HoldExpiry :
    (scene.hold 1 = some { tab := 2, deadline := 60000 } ∧ (scene.dir 2).paidInPart = false ∧ (scene.dir 2).slot = some 1 ∧
      (scene.slot 1).state = .ready ∧ (scene.slot 1).tab = some 2 ∧ (scene.slot 1).record = some tab2 ∧ tab2.plan ≠ none) ∧
    (partPaid.hold 1 = some { tab := 2, deadline := 60000 } ∧ (partPaid.dir 2).paidInPart = true) ∧
    (scene.setDir 2 (entry .tendering (some 1) false 0 none)).hold 1 = some { tab := 2, deadline := 60000 } ∧
    ((scene.setDir 2 (entry .tendering (some 1) false 0 none)).dir 2).slot = none := by decide +kernel

theorem witness_AvailQuery : Admitted scene 1 .availQuery := by decide +kernel
theorem witness_Hello : (Admitted scene 3 .hello ∧ scene.overflow = [] ∧ (scene.station 3).ready = true) ∧
    Admitted scene 4 .hello ∧ (scene.station 4).ready = false := by decide +kernel

theorem witness_Taken : scene.role 3 = .station ∧
    scene.ticketOf 3 (read2 8 0) = some (ticket 8 1 3 .sent false 3) ∧ (ticket 8 1 3 .sent false 3).revision = 1 ∧
    (ticket 8 1 3 .sent false 3).revision ≠ 0 ∧ scene.ticketOf 3 (read2 10 0) = some (ticket 10 1 3 .stale false 6) ∧
    scene.ticketOf 3 (read2 9 0) = some (ticket 9 1 3 .queued false 5) ∧
    scene.ticketOf 3 (read2 7 0) = some (ticket 7 1 3 .shown true 1) ∧ scene.ticketOf 3 (read2 99 0) = none ∧
    ([8, 0] : List Byte).length ≠ 3 := by decide +kernel

theorem witness_Start : Admitted scene 3 .start ∧ scene.ticketOf 3 (read2 10 0) = some (ticket 10 1 3 .stale false 6) ∧
    scene.ticketOf 3 (read2 99 0) = none ∧ scene.ticketOf 3 (read2 8 0) = some (ticket 8 1 3 .sent false 3) := by
  decide +kernel

/-- The grill has accepted a bump just now. -/
def guarded : State := scene.setStation 3 { grill with lastBump := some 900 }

theorem witness_Bump : (Admitted scene 3 .bump ∧ scene.guardsBump 3 = false ∧
      scene.ticketOf 3 (read2 7 0) = some (ticket 7 1 3 .shown true 1) ∧ scene.overflow = []) ∧
    Admitted guarded 3 .bump ∧ guarded.guardsBump 3 = true := by decide +kernel
theorem witness_Bump_unknown : scene.guardsBump 3 = false ∧ scene.ticketOf 3 (read2 99 0) = none ∧
    scene.ticketOf 3 (read2 9 0) = some (ticket 9 1 3 .queued false 5) := by decide +kernel
/-- R71's positions: a ticket that is not rush, a rush ticket before tickets that are not, and behind the last rush ticket. -/
theorem witness_Bump_positions :
    let rush := { ticket 1 1 3 .queued false 1 with rush := true }
    grill.queue.all (fun y => !y.rush) = true ∧ rush :: grill.queue = [] ++ rush :: grill.queue ∧
    (ticket 2 1 3 .queued false 1).rush = false := by decide +kernel

theorem witness_Recall :
    (Admitted scene 3 .recallTicket ∧ (scene.station 3).recalls = [{ ticket := ticket 30 3 3 .shown true 1, gone := false }] ∧
      (scene.station 3).queue.length < 24 ∧ scene.isLiveNumber 30 = false) ∧
    (scene.setStation 3 { grill with queue := grill.queue ++ [ticket 30 1 3 .queued false 9] }).isLiveNumber 30 = true ∧
    ((scene.setStation 3 { grill with
      recalls := [{ ticket := ticket 30 3 3 .shown true 1, gone := true }] }).station 3).recalls.map RecallEntry.gone = [true] ∧
    24 ≤ ((scene.setStation 3 { grill with queue := List.replicate 24 (ticket 9 1 3 .queued false 5) }).station 3).queue.length := by
  decide +kernel
theorem witness_Recall_number : 1 ≤ scene.ticketCounter ∧ scene.ticketCounter ≤ 65535 ∧ scene.liveTickets.length ≤ 624 ∧
    ({ scene with ticketCounter := 65535 }).ticketCounter ≤ 65535 := by decide +kernel

/-- Chapter 11.2's ovens, ports 3 and 4 here: 610 started, 611 SHOWN, 612 SENT, 613 QUEUED; the second oven has one SENT ticket. -/
def ovens : State :=
  (scene.setStation 3 { grill with
    alternate := some 4, balance := true, window := 1, sent := [612], ackTimer := some 4000,
    queue := [ticket 610 1 3 .shown true 1, ticket 611 1 3 .shown false 2, ticket 612 1 3 .sent false 3,
      ticket 613 1 3 .queued false 4] }).setStation 4 { Station.fresh with
        ready := true, resync := 0, sent := [614], queue := [ticket 614 1 4 .sent false 5] }

theorem witness_Timers : (scene.station 3).ackTimer = some 4000 ∧ scene.readyAlternate 3 = none ∧ scene.overflow = [] ∧
    ({ scene with imageTimer := some 30000 }).imageTimer = some 30000 := by decide +kernel
theorem witness_Timers_alternate : (ovens.station 3).ackTimer = some 4000 ∧ ovens.readyAlternate 3 = some 4 ∧
    ((ovens.station 3).queue.map Ticket.number).Nodup ∧ (ovens.station 3).ready = true ∧ (ovens.station 3).balance = true ∧
    (ovens.station 3).alternate = some 4 ∧ ovens.role 4 = .station := by decide +kernel

/-- The scene with the grill's resync counter at a value. -/
def resynced (c : Fin 4) : State := scene.setStation 3 { grill with resync := c }

theorem witness_StationFrames :
    ((scene.station 3).ready = true ∧ (scene.station 3).sent.length < (scene.station 3).window ∧
      (scene.port 3).hasRoom = true ∧ (scene.station 3).resync ≠ 3 ∧ (scene.station 3).resync = 0 ∧
      nextToSend (scene.station 3).queue = some (ticket 9 1 3 .queued false 5)) ∧
    (((resynced 3).station 3).ready = true ∧ ((resynced 3).station 3).resync = 3 ∧ ((resynced 3).port 3).hasRoom = true) ∧
    ((resynced 1).station 3).resync = 1 ∧ ((resynced 2).station 3).resync = 2 ∧ ((resynced 1).port 3).frames = [] := by
  decide +kernel

/-- A change waits in the availability list, port 2 is stale, and a notice waits. -/
def changed : State :=
  { scene.setPort 2 { scene.port 2 with stale := true } with
    availList := [{ item := 12, availability := .out, stock := some 0 }], notices := [.saveDone true] }

theorem witness_SwitchFrames :
    (changed.availList ≠ [] ∧ changed.offerOutstanding = false ∧ (changed.role 1).isTill = true ∧ (changed.port 1).hasRoom = true ∧
      (changed.role 3).isTill = false) ∧
    ((changed.role 2).isTill = true ∧ (changed.port 2).stale = true ∧ (changed.port 2).frames = []) ∧
    changed.notices = .saveDone true :: [] ∧ (changed.port 0).hasRoom = true := by decide +kernel
theorem witness_SwitchFrames_no_room :
    (({ LanePort.fresh with
      queue := List.replicate 7 { kind := .reply, tag := 0, body := [], source := .answer } } : LanePort)).hasRoom = false := by
  decide +kernel
/-- Forty items are OUT: port 2's image has a first frame of 30 that is not the last, and after item 30 a last frame of 10. -/
def manyOut : State :=
  { changed with items := (List.range' 1 40).map (fun c =>
      (c, { price := 100, taxClass := 0, station := none, tracking := some { level := 1, stock := 0, sold := 1, lowMark := 0 } })) }

theorem witness_SwitchFrames_image :
    tableRising manyOut.items = true ∧ (manyOut.shortItems 0).length = 40 ∧ (manyOut.shortItems 30).length = 10 ∧
    (manyOut.shortItems 40).length = 0 ∧ (manyOut.role 2).isTill = true ∧ (manyOut.port 2).stale = true ∧
    (manyOut.port 2).frames = [] ∧
    (let s := manyOut.setPort 2 { manyOut.port 2 with image := some 30 }
     (s.port 2).stale = true ∧ (s.port 2).frames = [] ∧ (s.port 2).image.getD 0 = 30) := by decide +kernel
/-- R63, R158: the first of two image frames has the marks image and first, 30 items, and the image goes on after item 30. -/
theorem test_image_first_of_two :
    let x := (after (.availabilityImageFrame 2) manyOut).port 2
    x.sending.map (fun f => f.body.take 4) = some [5, 30, 1, 0] ∧ x.stale = true ∧ x.image = some 30 := by decide +kernel

theorem witness_LoadPorts :
    OfficeAdmitted scene ∧ scene.save = none ∧ readLoadPorts [1, 1, 1, 1] = some [(1, .till 0)] ∧ scene.role 1 = .till 0 ∧
    readLoadPorts [1, 1, 2, 0] = some [(1, .station)] ∧ scene.role 1 ≠ .station ∧
    ¬ ((scene.role 1).isTill = true ∧ PortRole.station.isTill = true) := by decide +kernel
/-- Several entries: port 1 to another group, its hold released, and port 2 a station. -/
theorem witness_LoadPorts_entries :
    readLoadPorts [2, 1, 1, 2, 2, 2, 0] = some [(1, .till 1), (2, .station)] ∧ scene.role 1 ≠ .till 1 ∧
    (scene.role 1).isTill = true ∧ scene.hold 1 = some { tab := 2, deadline := 60000 } ∧ scene.hold 2 = none := by
  decide +kernel

theorem witness_LoadRates : OfficeAdmitted scene ∧ scene.save = none ∧
    OfficeAdmitted { scene with save := some { stage := .erasing, began := 900 } } ∧
    ({ scene with save := some { stage := .erasing, began := 900 } }).save ≠ none := by decide +kernel

theorem witness_LoadItems :
    OfficeAdmitted scene ∧ scene.save = none ∧
    readItemList 8 [2, 9, 0, 0, 0, 0, 0, 0, 0, 0, 0, 0, 12, 0, 0, 0, 0, 0, 0, 0, 0, 0, 0] = some [(9, none), (12, none)] := by
  decide +kernel

theorem witness_LoadStations :
    OfficeAdmitted scene ∧ scene.save = none ∧
    readLoadStations [1, 3, 3, 4, 9] = some [(3, { alternate := some 4, balance := true, window := 4 })] ∧
    (scene.station 3).sent.Nodup ∧
    readLoadStations [2, 3, 0, 0, 0, 4, 0, 0, 9] = some [(3, { alternate := none, balance := false, window := 1 }),
      (4, { alternate := none, balance := false, window := 4 })] := by decide +kernel

theorem witness_TimersAndMask : OfficeAdmitted scene ∧ scene.save = none ∧ (0x7F : Byte).getLsbD 7 = false ∧
    (0x80 : Byte).getLsbD 7 = true := by decide +kernel

theorem witness_StockRequests :
    OfficeAdmitted scene ∧ scene.save = none ∧ isItemCode (read2 10 0) = true ∧ (scene.item (read2 10 0)).isSome = true ∧
    read2 0x0F 0x27 ≤ 9999 ∧ -9999 ≤ readSigned2 0xF1 0xD8 ∧ readSigned2 0xF1 0xD8 ≤ 9999 ∧ readSigned2 0xF1 0xD8 < 0 ∧
    (12 + 8 = 20 ∧ 20 ≤ 9999) := by decide +kernel
/-- The availability list holds the item's entry, does not and has room for one, and is full without it. -/
theorem witness_StockRequests_latch :
    let e : AvailEntry := { item := 12, availability := .out, stock := some 0 }
    (∃ x ∈ changed.availList, x.item = e.item) ∧ (∀ x ∈ scene.availList, x.item ≠ e.item) ∧ scene.availList.length < 32 ∧
    32 ≤ (List.replicate 32 { e with item := 11 }).length ∧ ∀ x ∈ List.replicate 32 { e with item := 11 }, x.item ≠ e.item := by
  decide +kernel

theorem witness_Collect :
    (OfficeAdmitted scene ∧ scene.closedList.find? (fun u => (scene.dir u).live = 0) = some 3 ∧ (scene.dir 3).state = .closed ∧
      (scene.dir 3).holder = none ∧ (scene.dir 3).slot = some 2 ∧ (scene.slot 2).state = .ready ∧ (scene.slot 2).tab = some 3 ∧
      (scene.slot 2).record = some tab3 ∧ (scene.slot 2).waits = [] ∧ (0 : Port) ∉ scene.engineWait) ∧
    ∀ u ∈ ({ scene with closedList := [1] }).closedList, (scene.dir u).live ≠ 0 := by decide +kernel

theorem witness_Discard :
    (OfficeAdmitted scene ∧ isTab (read2 4 0) = true ∧ (scene.dir 4).state = .damaged ∧ (scene.dir 4).holder = none ∧
      (scene.dir 4).live = 0) ∧
    ((scene.dir 8).state = .opened ∧ (scene.dir 8).slot = some 4 ∧ (scene.slot 4).state = .ready ∧
      (scene.slot 4).tab = some 8 ∧ (scene.slot 4).record = some tab8 ∧ (scene.slot 4).waits = [] ∧
      (0 : Port) ∉ scene.engineWait ∧ (∀ l ∈ tab8.lines, l.state ≠ .active) ∧ (scene.dir 8).live = 0 ∧
      (scene.dir 8).holder = none) ∧
    (scene.slot 0).record = some tab1 ∧ ∃ l ∈ tab1.lines, l.state = .active := by decide +kernel

/-- Ticket 50 of tab 1 stands in the overflow list. -/
def overflowing : State := { scene with overflow := [ticket 50 1 3 .queued false 9] }

theorem witness_CancelTicket :
    (OfficeAdmitted scene ∧ read2 8 0 ≠ 0 ∧
      scene.liveTickets.find? (fun u => u.number = read2 8 0) = some (ticket 8 1 3 .sent false 3) ∧ scene.overflow = []) ∧
    (OfficeAdmitted overflowing ∧
      overflowing.liveTickets.find? (fun u => u.number = read2 50 0) = some (ticket 50 1 3 .queued false 9) ∧
      (∃ u ∈ overflowing.overflow, u.number = 50)) ∧
    scene.isLiveNumber (read2 99 0) = false := by decide +kernel
/-- A ticket that was ever transmitted, of a STATION port with room in its transmit queue and of one without. -/
theorem witness_CancelTicket_withdraw :
    let sent := scene.setStation 3 { grill with queue := [twoLineTicket] }
    let full : LanePort := { LanePort.fresh with
      queue := List.replicate 7 { kind := .image, tag := 0, body := [], source := .own } }
    sent.liveTickets.find? (fun u => u.number = read2 8 0) = some twoLineTicket ∧ twoLineTicket.everTransmitted = true ∧
    sent.role 3 = .station ∧ (sent.port 3).hasRoom = true ∧ ((sent.setPort 3 full).port 3).hasRoom = false := by decide +kernel

theorem witness_Flush : (OfficeAdmitted scene ∧ scene.flushSlots = [0, 1] ∧
      (scene.slot 0).state = .ready ∧ (scene.slot 0).dirty = true) ∧
    ({ scene with slots := Vector.replicate 8 CacheSlot.cleared }).flushSlots = [] := by decide +kernel

theorem witness_AuditStarts : OfficeAdmitted scene ∧ scene.audit = none ∧
    auditLook (scene.directory.filter (fun e => 1 ≤ e.1)) = (4, some 6) ∧
    auditLook (({ scene with directory := [] }).directory.filter (fun e => 1 ≤ e.1)) = (0, none) ∧
    ({ scene with audit := some { position := 6, verified := 0, damaged := 0, skipped := 0, firstDamaged := none,
                                  freed := false } }).audit ≠ none := by decide +kernel

/-- A check runs for port 2's SPLIT, which stands at the head of slot 0's wait list. -/
def checking : State :=
  { (scene.setSlot 0 { scene.slot 0 with waits := [{ port := 2, request := .split 1 (.even 2) }] }).setPort 2
      { scene.port 2 with request := some { kind := .split, tag := 5 } } with
    check := .running .split, engineWait := [2] }

/-- Port 1 is a till with a hold, port 2's request waits, port 3 is a READY station with a READY alternate, port 4 one without. -/
theorem witness_ResetPort : OfficeAdmitted scene ∧ (1 : Port) ≠ 0 ∧ (scene.role 1).isTill = true ∧
    scene.hold 1 = some { tab := 2, deadline := 60000 } ∧ (checking.slot 0).waits.map Waiter.port = [2] ∧ checking.hold 2 = none ∧
    OfficeAdmitted ovens ∧ (ovens.station 3).ready = true ∧ ovens.readyAlternate 3 = some 4 ∧ ovens.readyAlternate 4 = none := by
  decide +kernel

theorem witness_SplitCheck :
    (OfficeAdmitted scene ∧ ∀ cause, scene.check ≠ .running cause) ∧
    (({ scene with check := .running .checkSplit }).check = .running .checkSplit ∧ scene.engineWait = []) ∧
    checking.check = .running .split ∧ checking.engineWait = [2] ∧ checking.slotHeadedBy 2 = some 0 ∧
    (checking.slot 0).waits = { port := 2, request := .split 1 (.even 2) } :: [] ∧
    (checking.port 2).request = some { kind := .split, tag := 5 } :=
  ⟨⟨office_admitted, fun _ h => nomatch h⟩, ⟨rfl, rfl⟩, by decide +kernel⟩
/-- Two SPLITs wait for the check, at slots 0 and 4. -/
def checkingTwo : State :=
  { (checking.setSlot 4 { checking.slot 4 with waits := [{ port := 1, request := .split 8 (.even 3) }] }).setPort 1
      { scene.port 1 with request := some { kind := .split, tag := 6 } } with engineWait := [2, 1] }

theorem witness_SplitCheck_several :
    checkingTwo.check = .running .split ∧ checkingTwo.engineWait.Nodup ∧
    ((allSlots.flatMap (fun i => (checkingTwo.slot i).waits)).map Waiter.port).Nodup ∧
    (∀ p ∈ checkingTwo.engineWait, checkingTwo.slotHeadedBy p ≠ none ∧ (checkingTwo.port p).request ≠ none) := by
  decide +kernel

/-- A SPLIT comes to its READY slot in each state of the check; with PASSED one that waits is released at a READY slot. -/
theorem witness_SplitCheck_gate :
    (Admitted scene 2 .split ∧ readSplit [1, 0, 1, 2] = some (1, .even 2) ∧ AtReadySlot scene 2 1 0 tab1 ∧
      (scene.dir 1).state ≠ .free ∧ (scene.dir 1).state ≠ .damaged) ∧
    ({ scene with check := .notRun }).check = .notRun ∧
    (({ scene with check := .running .split, engineWait := [4, 5, 6] }).engineWait.length < 4 ∧
      4 ≤ ({ scene with check := .running .split, engineWait := [4, 5, 6, 7] }).engineWait.length ∧
      (2 : Port) ∉ ({ scene with check := .running .split, engineWait := [4, 5, 6, 7] }).engineWait) ∧
    ({ scene with check := .failed }).check = .failed ∧
    (let s := { checking with check := .passed, engineWait := [] }
     s.check = .passed ∧ 2 ∉ s.engineWait ∧ s.slotHeadedBy 2 = some 0 ∧ (s.slot 0).state = .ready ∧
     (TabRequest.split 1 (.even 2)).isSplit = true) := by decide +kernel

/-- A save is writing the node of this index. -/
def saving (k : Nat) : State := { scene with save := some { stage := .writing k, began := 900 } }

theorem witness_Save :
    (OfficeAdmitted scene ∧ scene.save = none) ∧ (saving 0).save = some { stage := .writing 0, began := 900 } ∧
    (saving 0).saveChain.length = 7 ∧ ((saving 0).saveChain[0]?).isSome = true ∧ 0 + 1 < (saving 0).saveChain.length ∧
    (saving 6).saveChain[6]? = some (flashNode 7 []) ∧ 6 + 1 = (saving 6).saveChain.length ∧ nodePlace (flashNode 7 []) [] ≠ flashNode 7 [] ∧
    nodePlace (flashNode 7 []) (flashNode 7 [] ++ [1]) = flashNode 7 [] ∧
    ({ scene with save := some { stage := .erasing, began := 900 } }).save = some { stage := .erasing, began := 900 } := by
  decide +kernel
/-- At the 500 ms (R174), and after them. -/
theorem witness_Save_limit :
    scene.now ≤ 500 + 500 ∧ ({ scene with save := some { stage := .erasing, began := 500 } }).save ≠ none ∧ 499 + 500 < scene.now := by
  decide +kernel

/-- Slot 5 fetches tab 6. -/
def fetching : State :=
  { (scene.setSlot 5 { CacheSlot.cleared with state := .fetching, tab := some 6 }).setDir 6 (entry .opened none false 0 (some 5)) with
    memRunning := some { op := .fetch 5, deadline := 1025 } }

theorem witness_Fetch :
    (({ scene with memQueue := [.fetch 5] }).memQueue = .fetch 5 :: [] ∧ scene.memRunning = none) ∧
    (({ scene with auditQueued := some 6 }).auditQueued = some 6 ∧ scene.memQueue = []) ∧
    fetching.memRunning = some { op := .fetch 5, deadline := 1025 } ∧ (fetching.slot 5).tab = some 6 ∧
    (fetching.slot 5).waits = [] ∧
    (record 6 lagers none []).tab = 6 ∧ (record 6 lagers none []).plan = none ∧ (fetching.dir 6).state = .opened ∧
    (record 6 lagers tab2.plan []).tab = 6 ∧ (record 6 lagers tab2.plan []).plan ≠ none := by decide +kernel
/-- A record with the check word computed over it, and one with another. -/
theorem witness_Fetch_check (r : TabRecord) :
    (fetching.readMemory r.tab (.delivers (withCheck r)) = some (withCheck r) ∧ (withCheck r).check = recordCheck r) ∧
    recordCheck r + 1 ≠ recordCheck r := ⟨⟨rfl, rfl⟩, by simp⟩
/-- Slot 5's fetch with a READ TAB and a SPLIT that wait, or with a SPLIT that the split engine keeps; at its limit and after it. -/
def fetchWaiting (deadline : Nat) : State :=
  { ((fetching.setSlot 5 { fetching.slot 5 with
      waits := [{ port := 1, request := .readTab 6 0 }, { port := 2, request := .split 6 (.even 2) }] }).setPort 1
      { scene.port 1 with request := some { kind := .readTab, tag := 2 } }).setPort 2
      { scene.port 2 with request := some { kind := .split, tag := 3 } } with
    memRunning := some { op := .fetch 5, deadline := deadline } }

theorem witness_Fetch_waiters :
    ((fetchWaiting 1000).now ≤ 1000 ∧ 999 < (fetchWaiting 999).now ∧
      (fetchWaiting 1000).memRunning = some { op := .fetch 5, deadline := 1000 }) ∧
    ((fetchWaiting 1000).slot 5).waits = { port := 1, request := .readTab 6 0 } :: [{ port := 2, request := .split 6 (.even 2) }] ∧
    (1 : Port) ∉ (fetchWaiting 1000).engineWait ∧ (TabRequest.readTab 6 0).isSplit = false ∧
    (((fetchWaiting 1000).slot 5).waits.map Waiter.port).Nodup ∧
    (2 : Port) ∈ ({ fetchWaiting 1000 with engineWait := [2] }).engineWait ∧
    (fetchWaiting 1000).readMemory 6 .asWritten = none := by decide +kernel

/-- Slot 0 is written back to make room for tab 6, and for FLUSH TABS alone. -/
def writing (incoming : Incoming) : State :=
  { scene.setSlot 0 { scene.slot 0 with state := .writing, incoming := incoming } with
    memRunning := some { op := .writeBack 0, deadline := 1025 } }

theorem witness_WriteBack :
    ((writing (.tab 6)).memRunning = some { op := .writeBack 0, deadline := 1025 } ∧ ((writing (.tab 6)).slot 0).tab = some 1 ∧
      ((writing (.tab 6)).slot 0).record = some tab1 ∧ ((writing (.tab 6)).slot 0).incoming = .tab 6 ∧ 6 ≠ 1 ∧
      ((writing (.tab 6)).slot 0).dirty = true ∧ tab1.tab = 1 ∧ (writing (.tab 6)).now ≤ 1025) ∧
    ((writing .new).slot 0).incoming = .new ∧ ((writing .new).slot 0).waits = [] ∧
    1024 < ({ writing .none with now := 1025, memRunning := some { op := .writeBack 0, deadline := 1024 } }).now := by
  decide +kernel

/-- Waiters at a slot that is written: an ORDER that opens a tab, behind a FLUSH a VOID, or a SPLIT that the split engine keeps. -/
def writingFor (incoming : Incoming) (w : Waiter) : State :=
  { (writing incoming).setSlot 0 { (writing incoming).slot 0 with waits := [w] } with
    flush := some { remaining := [0, 1], written := 2, firstFault := none } }

theorem witness_WriteBack_waiters :
    let order : Waiter := { port := 2, request := .order 0 false threeLines }
    let void : Waiter := { port := 1, request := .void 1 2 }
    let split : Waiter := { port := 2, request := .split 1 (.even 2) }
    (((writingFor .new order).slot 0).incoming = .new ∧ ((writingFor .new order).slot 0).waits = [order]) ∧
    ((writingFor .none void).flush = some { remaining := [0, 1], written := 2, firstFault := none } ∧ (0 : SlotId) ∈ [0, 1] ∧
      ((writingFor .none void).slot 0).waits = void :: [] ∧ void.port ∉ (writingFor .none void).engineWait ∧
      void.request.isSplit = false ∧ ((writingFor .none void).slot 0).dirty = true) ∧
    split.port ∈ ({ writingFor .none split with engineWait := [2] }).engineWait := by decide +kernel

/-- R37: writes of a FLUSH that are not the last, and the last one, good and abandoned. -/
theorem witness_WriteBack_flush :
    let s := { occupied.setPort 0 { scene.port 0 with request := some { kind := .flushTabs, tag := 9 } } with
      flush := some { remaining := [0], written := 2, firstFault := none } }
    s.flush = some { remaining := [0], written := 2, firstFault := none } ∧ ([0] : List SlotId).erase 0 = [] ∧
    (s.port 0).request = some { kind := .flushTabs, tag := 9 } ∧ (none : Option Nat).or none = none ∧
    (none : Option Nat).or (some 1) = some 1 ∧ ([0, 1] : List SlotId).erase 0 ≠ [] := by decide +kernel

/-- An audit that has come to tab 8, the last listed; in the scene tab 8 is made uncached. -/
def auditing (freed : Bool) : State :=
  { scene.setDir 8 (entry .opened none false 0 none) with
    audit := some { position := 8, verified := 0, damaged := 0, skipped := 0, firstDamaged := none, freed := freed },
    memRunning := some { op := .auditRead 8, deadline := 1025 } }

theorem witness_AuditRead :
    ((auditing false).memRunning = some { op := .auditRead 8, deadline := 1025 } ∧ (auditing false).audit.isSome = true ∧
      (∀ e ∈ (auditing false).directory, e.1 ≤ 8) ∧
      (passes 8 ((auditing false).readMemory 8 .asWritten)).isSome = false ∧ mayDamage ((auditing false).dir 8) = true) ∧
    (auditing true).audit.map Audit.freed = some true ∧ (auditing false).now ≤ 1025 ∧
    1024 < ({ auditing false with now := 1025, memRunning := some { op := .auditRead 8, deadline := 1024 } }).now ∧
    mayDamage ((auditing false).dir 9) = false := by decide +kernel
theorem witness_AuditRead_passes :
    (passes 8 ((auditing false).readMemory 8 (.delivers (withCheck tab8)))).isSome = true :=
  congrArg Option.isSome (passes_withCheck tab8)

/-- The uplink's READ TAB waits at slot 0, which is READY. -/
def waiting : State :=
  (scene.setSlot 0 { scene.slot 0 with waits := [{ port := 0, request := .readTab 1 0 }] }).setPort 0
    { scene.port 0 with request := some { kind := .readTab, tag := 3 } }

theorem witness_Waiter :
    (waiting.slot 0).state = .ready ∧ (waiting.slot 0).waits = { port := 0, request := .readTab 1 0 } :: [] ∧
    (0 : Port) ∉ waiting.engineWait ∧ (TabRequest.readTab 1 0).isSplit = false ∧ waiting.role 0 = .uplink ∧
    (waiting.slot 0).record = some tab1 ∧ (waiting.port 0).request = some { kind := .readTab, tag := 3 } := by decide +kernel
/-- The scene with every slot FETCHING, and with every slot READY and dirty. -/
def busySlots : State := { scene with slots := scene.slots.map (fun x => { x with state := .fetching }) }
def dirtySlots : State := { scene with slots := Vector.replicate 8 (cached 1 tab1 true) }

/-- A request on tab 6, in no slot, with an EMPTY victim, with none, and with a dirty one. -/
theorem witness_Cache_miss :
    (ReachesCache scene 2 .void 0 [6, 0, 1] (.void 2 0 [6, 0, 1]) 6 (.void 6 1) ∧ (scene.dir 6).slot = none) ∧
    (scene.victim = some 5 ∧ scene.victimDirty 5 = false) ∧
    (ReachesCache busySlots 2 .void 0 [6, 0, 1] (.void 2 0 [6, 0, 1]) 6 (.void 6 1) ∧ busySlots.victim = none) ∧
    ReachesCache dirtySlots 2 .void 0 [6, 0, 1] (.void 2 0 [6, 0, 1]) 6 (.void 6 1) ∧
    (dirtySlots.victim = some 0 ∧ dirtySlots.victimDirty 0 = true ∧ ∀ i, (dirtySlots.slot i).state ≠ .empty) ∧
    (readOrder (orderBody 0 threeBytes) = some (0, false, threeLines) ∧ Admitted { dirtySlots with freeList := [] } 2 .order) ∧
    dirtySlots.freeList ≠ [] :=
  ⟨by decide +kernel, by decide +kernel, by decide +kernel, by decide +kernel, by decide +kernel, by decide +kernel,
    by decide +kernel⟩

/-- The wait list of a slot that fetches tab 6, with room and full; tab 1 in a slot that is written out for tab 6. -/
theorem witness_Cache_joins :
    ReachesCache ((fetchWaiting 1025).setPort 2 LanePort.fresh) 2 .void 0 [6, 0, 1] (.void 2 0 [6, 0, 1]) 6 (.void 6 1) ∧
    JoinsAt ((fetchWaiting 1025).setPort 2 LanePort.fresh) 6 5 ∧ ((fetchWaiting 1025).slot 5).waits.length < 4 ∧
    4 ≤ (((fetchWaiting 1025).setSlot 5 { (fetchWaiting 1025).slot 5 with
      waits := List.replicate 4 { port := 1, request := .readTab 6 0 } }).slot 5).waits.length ∧
    (ReachesCache (writing (.tab 6)) 2 .void 0 [1, 0, 1] (.void 2 0 [1, 0, 1]) 1 (.void 1 1) ∧
      ((writing (.tab 6)).dir 1).slot = some 0 ∧ ((writing (.tab 6)).slot 0).tab = some 1 ∧
      ((writing (.tab 6)).slot 0).state = .writing ∧ ((writing (.tab 6)).slot 0).incoming ≠ .none) :=
  ⟨by decide +kernel, by unfold JoinsAt; decide +kernel, by decide +kernel, by decide +kernel, by decide +kernel⟩

theorem witness_Cache_office :
    AsksCache scene 0 .readTab 0 [6, 0, 0] (.readTab 0 0 [6, 0, 0]) 6 (.readTab 6 0) ∧
    AsksCache scene 0 .discardTab 0 [6, 0] (.discardTab 0 0 [6, 0]) 6 (.discardTab 6) ∧
    AsksCache scene 0 .collect 0 [] (.collect 0 0 []) 3 (.collect 3) :=
  ⟨.inr (by decide +kernel), .inr (by decide +kernel), .inr (by decide +kernel)⟩

/-! ### Single steps, against the manual's examples and tables -/

/-- The body of the frame that a port is sending after a command. -/
def bodyAt (p : Port) (s : State) : Option (List Byte) := ((s.port p).sending).map TxFrame.body

/-- R161, R164: STARTING, no table loaded. -/
theorem test_partReset : (after (.partReset []) scene).phase = .starting ∧ (after (.partReset []) scene).startUp = 0 := by
  decide +kernel

/-- R159, R163, R164: a TAX TABLE node at the start of the flash. -/
theorem test_configWalkNode_taxes :
    let t := after (.configWalkNode .contents) (starting (flashNode 3 (rateBytes [0, 825, 1000, 3000])))
    t.taxRates = #v[0, 825, 1000, 3000] ∧ t.startUp = 0x04 ∧ t.walkAt = 13 ∧ t.phase = .starting := by decide +kernel
/-- R162: an erased flash ends the walk at its first node. -/
theorem test_configWalkNode_erased : (after (.configWalkNode .contents) (starting [])).phase = .ready := by decide +kernel

/-- R143: a run of three bytes is discarded, and the port gathers again. -/
theorem test_runDiscarded : ((after (.runDiscarded 1 [3, 0x18, 1]) scene).port 1) = { scene.port 1 with discarding := false } := by
  decide +kernel

/-- R154's frame, one byte wrong: LINK-ERROR with tag 0 and kind 0 (R144, R147). -/
theorem test_linkError :
    ((after (.linkError 0 [0x06, 0x4F, 0x07, 0x04, 0xAF, 0x1E]) scene).port 0).sending =
      some { kind := .reply, tag := 0, body := [0xFF, 0], source := .answer } := by decide +kernel
/-- R154: "The switch takes it, resets port 5 and replies OK." -/
theorem test_linkError_good_crc :
    let t := after (.linkError 0 [0x06, 0x4F, 0x07, 0x05, 0xAF, 0x1E]) (scene.setPort 5 sendingPort)
    t.port 5 = LanePort.fresh ∧ (t.port 0).sending = some (replyFrame .resetPort 7 .ok [5]) := by decide +kernel

/-- R145, R147: kind 60 is assigned to nothing. -/
theorem test_kindNotPermitted :
    ((after (.kindNotPermitted 1 0x60 9 []) scene).port 1).sending =
      some { kind := .reply, tag := 9, body := [0x09, 0x60], source := .answer } := by decide +kernel

/-- Chapter 11.3, event 1: burger x 2 and lager x 2; the totals 2,100, 1,800, 173, 180, 390 and 4,643, and a count of 1. -/
theorem test_order_11_3 :
    let t := after (.order 1 1 (orderBody 0 [10, 0, 2, 0, 11, 0, 2, 0])) scene
    (t.slot 5).record.map TabRecord.totals =
      some { amounts := { net := #v[0, 2100, 1800, 0], tax := #v[0, 173, 180, 0], service := 390 }, total := 4643 } ∧
    (t.dir 20).live = 1 ∧ (t.dir 20).state = .opened := by decide +kernel

/-- Chapter 11.1's fryer: two rush tickets and 22 others in its queue; 880, 881 and 900 in the overflow list, and 901, rush. -/
def fryerTicket (n : Nat) (rush : Bool) (state : TxState) : Ticket := { ticket n 1 3 state false 1 with rush := rush }
def fryer : State :=
  { scene.setStation 3 { grill with
      sent := [852, 853],
      queue := [fryerTicket 850 true .shown, fryerTicket 851 true .shown, fryerTicket 852 false .sent,
        fryerTicket 853 false .sent] ++ (List.range' 854 20).map (fun n => fryerTicket n false .queued) } with
    overflow := [fryerTicket 880 false .queued, fryerTicket 881 false .queued, fryerTicket 900 false .queued,
      fryerTicket 901 true .queued] }

/-- Chapter 11.1, event 5: 850 goes to the recall list; 901 comes in directly behind 851. -/
theorem test_bump_11_1 :
    let t := after (.bump 3 1 (num2 850)) fryer
    ((t.station 3).queue.map Ticket.number).take 3 = [851, 901, 852] ∧ (t.station 3).queue.length = 24 ∧
    t.overflow.map Ticket.number = [880, 881, 900] ∧ (t.station 3).recalls.map (fun e => e.ticket.number) = [850, 30] := by
  decide +kernel
/-- Chapter 11.1, event 4 as it stands here: with 48 in the overflow list the fries line fails KITCHEN-FULL and the lager is taken. -/
theorem test_order_11_1 :
    let s := { fryer with overflow := List.replicate 48 (fryerTicket 880 false .queued) }
    let t := after (.order 1 1 (orderBody 1 [10, 0, 1, 0, 11, 0, 1, 0])) s
    (bodyAt 1 t).map (fun b => b.take 13) = some [0x02, 0x10, 1, 0, 2, 5, 0, 0, 0, 0, 4, 0, 0] ∧ t.items = s.items := by
  decide +kernel

/-- Chapter 11.3 after event 4: line 1 WASTE, and line 4 on ticket 1203 (here 9), SENT and not started. -/
def clubLines (four : LineState) : List TabLine :=
  [line 1 10 2 1050 1 .waste (some 7), line 2 11 2 900 2 .active none, line 3 12 1 450 1 .active (some 1202),
   line 4 10 1 800 1 four (some 9), line 5 13 1 1150 1 .active none]
def club4 : State :=
  (scene.setSlot 0 (cached 1 (record 1 (clubLines .active) none []) true)).setStation 3 { grill with
    sent := [9], queue := [{ ticket 9 1 3 .sent false 4 with everTransmitted := true }] }

/-- Chapter 11.3, event 5: the line is struck, the ticket removed, a WITHDRAW goes out, the total is 4,052 and stock returns. -/
theorem test_void_11_3 :
    let t := after (.void 1 1 [1, 0, 4]) club4
    (t.slot 0).record.map (fun r => r.totals.total) = some 4052 ∧ (t.station 3).queue = [] ∧ (t.station 3).sent = [] ∧
    (t.dir 1).live = 3 ∧ (t.port 3).sending.map (fun f => (f.kind, f.body)) = some (.withdraw, [9, 0]) ∧
    ((t.item 10).bind Item.tracking).map (fun k => (k.stock, k.sold)) = some (13, 7) := by decide +kernel
/-- Chapter 11.3, event 4: a line of a started ticket becomes WASTE and no stock returns. -/
theorem test_void_waste :
    let t := after (.void 1 1 [1, 0, 1]) scene
    (t.slot 0).record.map (fun r => r.lines.map (fun l => l.state)) = some [.waste, .active, .active] ∧ t.items = scene.items ∧
    (t.dir 1).live = 4 := by decide +kernel

/-- Chapter 11.3: SPLIT BY-ITEM 3, policy REFUSE. -/
def clubSpec : List Byte :=
  [1, 0, 2, 3, 1, 6, 2, 1, 1, 2, 2, 1, 3, 3, 1, 5, 1, 1, 5, 2, 1, 5, 3, 1]
def club5 : State := scene.setSlot 0 (cached 1 (record 1 (clubLines .void) none []) true)
theorem test_split_11_3 :
    let t := after (.split 2 1 clubSpec) club5
    ((t.slot 0).record.bind TabRecord.plan).map (fun p => p.shares.map (fun x => (x.due, (x.components.map (fun a =>
      [a.net[1], a.net[2], a.tax[1], a.tax[2], a.service])).getD []))) =
      some [(1535, [384, 900, 32, 90, 129]), (1532, [383, 900, 31, 90, 128]), (985, [833, 0, 69, 0, 83])] ∧
    t.hold 2 = some { tab := 1, deadline := 121000 } := by decide +kernel
/-- R116: a total of 6,549 split EVEN 4. -/
theorem test_split_even : apportion 6549 (evenWeights 4) = [1638, 1637, 1637, 1637] := by decide +kernel

theorem test_cancelSplit : ((after (.cancelSplit 1 1 [2, 0]) scene).dir 2).state = .opened := by decide +kernel

/-- Chapter 11.4 before event 6: A and B are paid, C owes 985; tab 1 here, held by port 2. -/
def club6 : State :=
  ((scene.setSlot 0 (cached 1 (record 1 (clubLines .void) (some { mode := .byItem, shares :=
    [share 1535 1535 .paid, share 1532 1532 .paid, share 985 0 .unpaid] }) []) true)).setHold 2
      (some { tab := 1, deadline := 5000 })).setDir 1 (entry .tendering (some 2) true 1 (some 0))
/-- Chapter 11.4, event 6: VOUCHER 1,000 credits 985 and forfeits 15, the tab is CLOSED and the hold gone. -/
theorem test_tender_11_4 :
    let t := after (.tender 2 1 [1, 0, 3, 3, 0xE8, 3, 0]) club6
    (t.slot 0).record.map (fun r => r.tenders) = some [{
      share := 3, method := .voucher, offered := 1000, credited := 985, change := none, forfeit := some 15 }] ∧
    (t.dir 1).state = .closed ∧ t.closedList = [3, 1] ∧ t.hold 2 = none := by
  decide +kernel
/-- R133: a CARD tender that is not the outstanding amount, and the outstanding amount in the reply. -/
theorem test_tender_card_mismatch :
    bodyAt 2 (after (.tender 2 1 [1, 0, 3, 2, 0xE8, 3, 0]) club6) = some [0x23, 0x16, 1, 0, 3, 0xD9, 3, 0, 0] := by
  decide +kernel

/-- Chapter 11.4, event 4: the plan summary BY-ITEM, 3 shares, 1 paid, outstanding 2,517 (09D5 hexadecimal), 1 tender. -/
theorem test_resume_11_4 :
    let r := record 5 (clubLines .void) (some { mode := .byItem, shares :=
      [share 1535 1535 .paid, share 1532 0 .unpaid, share 985 0 .unpaid] })
      [{ share := 1, method := .card, offered := 1535, credited := 1535, change := none, forfeit := none }]
    let t := after (.resume 2 1 [5, 0]) (scene.setSlot 3 (cached 5 r false))
    bodyAt 2 t = some [0, 0x17, 5, 0, 2, 3, 1, 0xD5, 0x09, 0, 1] ∧ t.hold 2 = some { tab := 5, deadline := 121000 } := by
  decide +kernel

/-- Chapter 11.4, event 2: paid in part, the tab stays TENDERING with no holder. -/
theorem test_holdExpiry_11_4 :
    let t := after (.holdExpiry 2) club6
    (t.dir 1).state = .tendering ∧ (t.dir 1).holder = none ∧ t.notices = [.hold 2 1 .expired .tendering true] := by
  decide +kernel
/-- R106: not paid in part, the tab is OPEN and the plan in its READY slot is removed. -/
theorem test_holdExpiry_plan :
    let t := after (.holdExpiry 1) scene
    (t.dir 2).state = .opened ∧ (t.slot 1).record.map TabRecord.plan = some none ∧ t.recency = scene.recency := by decide +kernel

theorem test_availQuery : ((after (.availQuery 1 1 []) scene).port 1).stale = true := by decide +kernel

/-- Chapter 11.2, event 2: the oven is DARK, 611 to 613 move, 610 stays; moved 3, remaining 1. -/
theorem test_ackTimerExpiry_11_2 :
    let t := after (.ackTimerExpiry 3) ovens
    (t.station 3).ready = false ∧ (t.station 3).queue.map Ticket.number = [610] ∧
    (t.station 4).queue.map Ticket.number = [614, 611, 612, 613] ∧
    (t.station 4).queue.map (fun x => x.state) = [.sent, .queued, .queued, .queued] ∧
    t.notices = [.station 3 false .ackTimeout 3 1] ∧ t.now = 4000 := by decide +kernel
/-- Chapter 11.2, event 4: 611 is no longer of the first oven. -/
theorem test_bump_11_2 :
    bodyAt 3 (after (.bump 3 1 (num2 611)) (after (.ackTimerExpiry 3) ovens)) = some [0x28, 0x23, 0, 0, 0, 0, 0, 0, 0] := by
  decide +kernel
/-- Chapter 11.2, event 5: HELLO is answered with 1, ticket 610 keeps its started flag, and the resync counter is 3. -/
theorem test_hello_11_2 :
    let t := after (.hello 3 1 []) (scene.setStation 3 { grill with
      ready := false, sent := [], ackTimer := none, queue := [ticket 610 1 3 .shown true 1] })
    bodyAt 3 t = some [0, 0x20, 1] ∧ (t.station 3).queue.map (fun x => (x.state, x.started)) = [(.queued, true)] ∧
    (t.station 3).resync = 3 ∧ t.notices = [.station 3 true .hello 0 1] := by decide +kernel
/-- Chapter 11.2, event 5: the urgent image lists one ticket, 610 (0262 hexadecimal), QUEUED, started, not rush. -/
theorem test_urgentImage_11_2 :
    let t := after (.urgentImage 3) (scene.setStation 3 { grill with resync := 3, queue := [ticket 610 1 3 .queued true 1] })
    bodyAt 3 t = some [1, 0x62, 0x02, 4] ∧ (t.station 3).resync = 0 := by decide +kernel
theorem test_trickleImage : ((after (.trickleImage 3) (resynced 2)).station 3).resync = 1 := by decide +kernel
/-- R96: raised by 1, to at most 3. -/
theorem test_imagePeriodExpiry :
    let t := after .imagePeriodExpiry { scene with imageTimer := some 30000 }
    (t.station 3).resync = 1 ∧ (t.station 4).resync = 3 ∧ t.imageTimer = some 60000 := by decide +kernel
/-- R73, R75: ticket 9 is the first QUEUED or STALE one; tag count 1 (R150). -/
theorem test_ticketSend :
    let t := after (.ticketSend 3) scene
    (t.station 3).sent = [8, 9] ∧ (t.port 3).sending.map (fun f => (f.tag, f.body)) =
      some (1, [9, 0, 1, 1, 0, 1, 0, 1, 10, 0, 1, 0]) ∧ (t.station 3).ackTimer = some 4000 := by decide +kernel

/-- R76: SENT at its own revision, and SENT at an older one. -/
theorem test_taken : ((after (.taken 3 0 [8, 0, 1]) scene).station 3).sent = [] := by decide +kernel
theorem test_taken_older :
    let t := after (.taken 3 0 [8, 0, 0]) scene
    (t.station 3).sent = [8] ∧ (t.station 3).ackTimer = some 4000 ∧ (t.port 3).frames = [] := by decide +kernel
theorem test_start : ((after (.start 3 1 [10, 0]) scene).ticketOf 3 10).map (fun x => (x.started, x.state)) =
    some (true, .stale) := by decide +kernel
/-- Chapter 11.5, event 4: a ticket of a DAMAGED tab re-enters at the head of the queue, and the tab's count becomes 1. -/
theorem test_recall_11_5 :
    let t := after (.recallTicket 3 1 []) (scene.setStation 3 { grill with
      recalls := [{ ticket := ticket 1410 4 3 .shown false 1, gone := false }] })
    ((t.station 3).queue.map (fun x => (x.number, x.state))).head? = some (1410, .queued) ∧ (t.dir 4).live = 1 := by
  decide +kernel
/-- Chapter 11.5, event 5: DISCARD TAB of a DAMAGED tab with a count of 1. -/
theorem test_discardTab_11_5 :
    bodyAt 0 (after (.discardTab 0 1 [4, 0]) (scene.setDir 4 (entry .damaged none true 1 none))) =
      some [0x18, 0x4A, 4, 0, 0, 0, 0, 0, 0] := by decide +kernel
/-- The COLLECT and the READ TAB of chapter 11.5 wait for the fetch of a CLOSED tab. -/
def collecting : State :=
  { (((fetching.setSlot 5 { fetching.slot 5 with
      waits := [{ port := 0, request := .collect 6 }, { port := 1, request := .readTab 6 0 }] }).setPort 0
      { scene.port 0 with request := some { kind := .collect, tag := 1 } }).setPort 1
      { scene.port 1 with request := some { kind := .readTab, tag := 2 } }).setDir 6 (entry .closed none true 0 (some 5)) with
    closedList := [6, 3] }

/-- Chapter 11.5, event 3: the check word fails, the COLLECT and the READ TAB behind it are answered TAB-DAMAGED. -/
theorem test_fetchComplete_11_5 :
    let r := record 6 lagers none []
    let t := after (.fetchComplete (.delivers { record := r, check := recordCheck r + 1 })) collecting
    (t.dir 6).state = .damaged ∧ t.closedList = [3] ∧ t.slot 5 = CacheSlot.cleared ∧
    bodyAt 0 t = some [0x16, 0x49, 0, 0, 0, 0, 0, 0, 0] ∧ bodyAt 1 t = some [0x16, 0x12, 6, 0, 0, 0, 0, 0, 0] ∧
    t.notices = [.tab 6 .damaged] := by
  intro r t
  have h : t = collecting.freeController.finishFetch 5 6 (.delivers { record := r, check := recordCheck r + 1 }) := rfl
  rw [h, finishFetch_fails _ _ _ (passes_wrong_check 6 (by simp))]
  decide +kernel
/-- Chapter 11.5, event 1: with no EMPTY slot the least recent READY one, clean, gives way to the tab that COLLECT chose. -/
theorem test_collect_11_5 :
    let s := { (scene.setDir 6 (entry .closed none true 0 none)) with
      closedList := [6, 3], slots := scene.slots.map (fun x => if x.state = .empty then cached 9 tab8 false else x),
      recency := [4, 0, 1, 2, 3, 5, 6, 7] }
    let t := after (.collect 0 1 []) s
    (t.dir 8).slot = none ∧ (t.dir 6).slot = some 4 ∧ (t.slot 4).state = .fetching ∧ t.memQueue = [.fetch 4] ∧
    (t.slot 4).waits = [{ port := 0, request := .collect 6 }] := by decide +kernel
theorem test_fetchAbandoned : (after .fetchAbandoned fetching).notices = [.tab 6 .fetchAbandoned] ∧
    (after .fetchAbandoned fetching).now = 1025 := by decide +kernel

theorem test_readTab :
    (bodyAt 1 (after (.readTab 1 1 [1, 0, 6]) scene)).map (fun b => b.take 12) =
      some [0, 0x12, 1, 0, 1, 0, 0, 4, 1, 1, 3, 6] := by decide +kernel
theorem test_listTabs :
    bodyAt 1 (after (.listTabs 1 1 [1, 0, 2, 0]) scene) =
      some [0, 0x13, 2, 2, 0, 2, 1, 1, 2, 0, 5, 0, 2, 1, 0, 3, 0, 0, 0] := by decide +kernel

/-- R141: a till made a station starts DARK, with its port as after part reset. -/
theorem test_loadPorts :
    let t := after (.loadPorts 0 1 [1, 1, 2, 0]) scene
    t.role 1 = .station ∧ (t.station 1).ready = false ∧ t.hold 1 = none ∧ (t.dir 2).holder = none := by decide +kernel
/-- R43, R44: a rate above 3,000 is clamped. -/
theorem test_loadTaxes : (after (.loadTaxes 0 1 [0xB9, 0x0B, 0, 0, 1, 0, 0xFF, 0xFF]) scene).taxRates = #v[3000, 0, 1, 3000] := by
  decide +kernel
theorem test_loadGroups : (after (.loadGroups 0 1 [0, 0, 1, 0, 2, 0, 3, 0, 4, 0, 5, 0, 6, 0, 0xB9, 0x0B]) scene).serviceRates =
    #v[0, 1, 2, 3, 4, 5, 6, 3000] := by decide +kernel
/-- R46, R51, R61: an item made undefined is IN; it was OUT. -/
theorem test_loadItems :
    let t := after (.loadItems 0 1 [1, 12, 0, 0, 0, 0, 0, 0, 0, 0, 0, 0]) scene
    t.item 12 = none ∧ t.availList = [{ item := 12, availability := .inStock, stock := none }] := by decide +kernel
/-- R166, R74: a window of 0 is clamped to 1, and the newest SENT ticket returns to QUEUED. -/
theorem test_loadStations :
    let t := after (.loadStations 0 1 [1, 3, 0, 0, 0]) (scene.setStation 3 { grill with sent := [10, 8] })
    (t.station 3).window = 1 ∧ (t.station 3).sent = [10] ∧ (t.ticketOf 3 8).map (fun x => x.state) = some .queued := by
  decide +kernel
/-- R167's ranges: 0 and 65,535 to the nearest limit. -/
theorem test_loadTimers : (after (.loadTimers 0 1 [0, 0, 0xFF, 0xFF, 0xFF, 31]) scene).timers =
    { hold := 10, ack := 100, image := 300, bump := 30 } := by decide +kernel
theorem test_setStock : bodyAt 0 (after (.setStock 0 1 [10, 0, 2, 0]) scene) = some [0, 0x46, 2, 0, 0, 0, 2, 0, 1] := by
  decide +kernel
/-- R50: -20 against a stock of 12 is applied as -12; the level is 8. -/
theorem test_adjustStock : bodyAt 0 (after (.adjustStock 0 1 [10, 0, 0xEC, 0xFF]) scene) =
    some [0, 0x47, 0xF4, 0xFF, 0, 0, 8, 0, 2] := by decide +kernel
theorem test_readItems : bodyAt 0 (after (.readItems 0 1 [12, 0]) scene) =
    some [0, 0x48, 1, 12, 0, 0x37, 0xC2, 1, 0, 4, 5, 0, 0, 0, 5, 0, 2, 0, 0] := by decide +kernel
/-- R140: the collected tab's summary, and its number at the tail of the free list. -/
theorem test_collect : (after (.collect 0 1 []) scene).freeList = [20, 21, 3] := by decide +kernel
theorem test_discardTab : ((after (.discardTab 0 1 [8, 0]) scene).slot 4) = CacheSlot.cleared := by decide +kernel
theorem test_cancelTicket : bodyAt 0 (after (.cancelTicket 0 1 [8, 0]) scene) = some [0, 0x4B, 8, 0, 1, 0, 3, 1, 3] := by
  decide +kernel
theorem test_flushTabs : (after (.flushTabs 0 1 []) scene).memQueue = [.writeBack 0, .writeBack 1] := by decide +kernel
/-- R39: the four cached tabs below tab 6 are skipped. -/
theorem test_auditTabs : (after (.auditTabs 0 1 []) scene).auditQueued = some 6 ∧
    (after (.auditTabs 0 1 []) scene).audit.map Audit.skipped = some 4 := by decide +kernel
theorem test_checkSplit : (after (.checkSplit 0 1 []) scene).check = .running .checkSplit := by decide +kernel
theorem test_resetPort : (after (.resetPort 0 1 [1]) scene).notices = [.hold 1 2 .portReset .opened false] := by decide +kernel
theorem test_saveConfig : bodyAt 0 (after (.saveConfig 0 1 []) scene) = some [1, 0x50] := by decide +kernel
theorem test_noticeMask : (after (.noticeMask 0 1 [0x7D]) scene).mask = 0x7D := by decide +kernel
theorem test_status : (bodyAt 0 (after (.status 0 1 []) scene)).map List.length = some 56 := by decide +kernel
/-- R172: after a start-up that loaded every table the reply ends A5 DF. -/
theorem test_describe :
    (bodyAt 0 (after (.describe 0 1 []) { scene with startUp := 0x3F })).map (fun b => b.drop 15) = some [0x3F, 0xA5, 0xDF] := by
  decide +kernel

/-- R29: slot operations before the audit read. -/
theorem test_memoryOpStart :
    (after .memoryOpStart { scene with memQueue := [.fetch 5], auditQueued := some 6 }).memRunning =
      some { op := .fetch 5, deadline := 1025 } := by decide +kernel
theorem test_writeBackComplete :
    let t := after .writeBackComplete (writing (.tab 6))
    (tableFind 1 t.tabMemory).map StoredRecord.record = some tab1 ∧ t.memQueue = [.fetch 0] ∧ (t.dir 1).slot = none := by
  decide +kernel
theorem test_writeBackAbandoned :
    let t := after (.writeBackAbandoned none) (writing (.tab 6))
    (t.slot 0).state = .ready ∧ (t.slot 0).dirty = true ∧ t.notices = [.tab 1 .writeAbandoned] := by decide +kernel
theorem test_auditReadComplete : (after (.auditReadComplete .asWritten) (auditing false)).notices =
    [.tab 8 .damaged, .auditDone 0 1 0 (some 8)] := by decide +kernel
theorem test_auditReadAbandoned : (after .auditReadAbandoned (auditing false)).notices = [.auditDone 0 0 1 none] := by
  decide +kernel
/-- R129: the SPLIT that waits is answered CHECK-FAILED. -/
theorem test_splitCheckEnd_failed : bodyAt 2 (after (.splitCheckEnd false) checking) = some [0x22, 0x14, 1, 0, 0, 0, 0, 0, 0] := by
  decide +kernel
theorem test_splitCheckEnd_passed : ((after (.splitCheckEnd true) checking).dir 1).state = .tendering := by decide +kernel
theorem test_saveEraseComplete :
    (after .saveEraseComplete { scene with save := some { stage := .erasing, began := 900 }, flash := [1, 2] }).flash = [] := by
  decide +kernel
theorem test_saveNodeVerified : (after (.saveNodeVerified none) (saving 6)).notices = [.saveDone true] := by decide +kernel
/-- R174: the failing GROUPS node has 21 bytes, so no more than 21 stand in its place; and an erase cut off leaves a part of the chain. -/
theorem test_saveFault :
    let t := after (.saveFault (List.replicate 30 1)) { saving 1 with flash := [9] }
    t.flash = 9 :: List.replicate 21 1 ∧ t.notices = [.saveDone false] := by decide +kernel
theorem test_saveFault_erase :
    (after (.saveFault [5, 7, 0, 8]) { scene with save := some { stage := .erasing, began := 900 }, flash := [5, 6, 0] }).flash =
      [5, 0xFF, 0] := by decide +kernel
theorem test_saveTimeout : (after (.saveTimeout [1]) (saving 2)).now = 1400 := by decide +kernel
/-- R149: the REPLY goes before the frame that has waited longer, and the slot's own reply frees the slot. -/
theorem test_frameSent :
    let t := after (.frameSent 1) (scene.setPort 1 sendingPort)
    bodyAt 1 t = some [0x0A, 0x10] ∧ (t.port 1).request = none := by decide +kernel
theorem test_waiterExecutes : (after (.waiterExecutes 0) waiting).recency = [1, 2, 3, 4, 5, 6, 7, 0] := by decide +kernel
/-- R158: item 12 OUT with a stock of 0: 8000 hexadecimal. -/
theorem test_availabilityOffer : bodyAt 1 (after .availabilityOffer changed) = some [0, 1, 12, 0, 0, 0x80] := by decide +kernel
/-- R63: one frame of one item, an image frame, the last and the first. -/
theorem test_availabilityImageFrame :
    bodyAt 2 (after (.availabilityImageFrame 2) changed) = some [7, 1, 12, 0, 0, 0x80] ∧
    ((after (.availabilityImageFrame 2) changed).port 2).stale = false := by decide +kernel
theorem test_noticeSend : bodyAt 0 (after .noticeSend changed) = some [7, 0, 0] := by decide +kernel

/-- An empty queue: the switch idles for a millisecond. -/
theorem test_step_idle : step scene = .next { scene with now := 1001 } := rfl

end Sys2Proof.Tests
end

section
/-! PROOFS. The apportion procedure (R114) and the dues of EVEN and BY-AMOUNT splits (R116, R120). The proof of R114 carries the set of
shares that have received a leftover cent: whoever is in it comes before whoever is not, and that with its size says which shares it
holds. -/

namespace Sys2Proof.SplitArithmetic

open Sys2Proof Sys2Proof.Machine Sys2Proof.Statements

/-! ### One leftover cent (R114) -/

theorem le_largestRemainder {x : Portion} {rows : List Portion} (hx : x ∈ rows) (he : x.extra = false) :
    x.remainder ≤ largestRemainder rows := by
  induction rows with
  | nil => cases hx
  | cons y rest ih =>
    rw [largestRemainder]
    rcases List.mem_cons.1 hx with rfl | hx
    · simp [he]
    · split
      · exact ih hx
      · exact (ih hx).trans (le_max_right _ _)

/-- Everything the largest remainder can be: that of a row without a cent, or 0 when every row has received one. -/
theorem largestRemainder_cases (rows : List Portion) :
    (∃ x ∈ rows, x.extra = false ∧ x.remainder = largestRemainder rows) ∨
    (largestRemainder rows = 0 ∧ ∀ x ∈ rows, x.extra = true) := by
  induction rows with
  | nil => exact .inr ⟨rfl, nofun⟩
  | cons y rest ih =>
    rw [largestRemainder]
    cases hy : y.extra with
    | true => simpa [hy] using ih
    | false =>
      refine .inl ?_
      rcases ih with ⟨x, hx, he, hr⟩ | ⟨hzero, -⟩
      · rcases max_choice y.remainder (largestRemainder rest) with hm | hm
        · exact ⟨y, List.mem_cons_self, hy, by simp [hm]⟩
        · exact ⟨x, List.mem_cons_of_mem _ hx, he, by simp [hm, hr]⟩
      · exact ⟨y, List.mem_cons_self, hy, by simp [hzero]⟩

/-- The cent goes to the first row with the remainder asked for. -/
theorem giveCent_eq_set {r : Nat} {rows : List Portion} (h : ∃ x ∈ rows, x.extra = false ∧ x.remainder = r) :
    ∃ (j : Nat) (hj : j < rows.length), rows[j].extra = false ∧ rows[j].remainder = r ∧
      (∀ (k : Nat) (hk : k < rows.length), rows[k].extra = false → rows[k].remainder = r → j ≤ k) ∧
      giveCent r rows = rows.set j { rows[j] with extra := true } := by
  induction rows with
  | nil => simp at h
  | cons y rest ih =>
    by_cases hy : y.extra = false ∧ y.remainder = r
    · exact ⟨0, Nat.succ_pos _, hy.1, hy.2, fun _ _ _ _ => Nat.zero_le _, by simp [giveCent, hy.1, hy.2]⟩
    · have hrest : ∃ x ∈ rest, x.extra = false ∧ x.remainder = r := by
        obtain ⟨x, hx, hr⟩ := h
        rcases List.mem_cons.1 hx with rfl | hx
        · exact absurd hr hy
        · exact ⟨x, hx, hr⟩
      obtain ⟨j, hj, he, hr, hfirst, hgive⟩ := ih hrest
      refine ⟨j + 1, Nat.succ_lt_succ hj, he, hr, fun k hk hek hrk => ?_, ?_⟩
      · cases k with
        | zero => exact absurd ⟨hek, hrk⟩ hy
        | succ k => exact Nat.succ_le_succ (hfirst k (Nat.lt_of_succ_lt_succ hk) hek hrk)
      · have : (!y.extra && y.remainder == r) = false := by
          simpa using fun hx : y.extra = false => fun hz => hy ⟨hx, hz⟩
        simp [giveCent, this, hgive]

/-! ### The shares that have received a cent -/

/-- Share `k` comes before share `j` when the leftover cents are handed out (R114): its remainder is larger, or the same with a lower
index. -/
abbrev ComesBefore (amount : Nat) (weights : List Nat) (k j : Nat) : Prop :=
  amount * weights.getD j 0 % weights.sum < amount * weights.getD k 0 % weights.sum ∨
    (amount * weights.getD k 0 % weights.sum = amount * weights.getD j 0 % weights.sum ∧ k < j)

/-- The rows of R114 when the shares in `served` have received a leftover cent. -/
def servedRows (amount : Nat) (weights : List Nat) (served : Finset Nat) : List Portion :=
  weights.mapIdx (fun j w =>
    { part := amount * w / weights.sum, remainder := amount * w % weights.sum, extra := decide (j ∈ served) })

@[simp] theorem servedRows_length (amount : Nat) (weights : List Nat) (served : Finset Nat) :
    (servedRows amount weights served).length = weights.length := by simp [servedRows]

@[simp] theorem servedRows_getElem (amount : Nat) (weights : List Nat) (served : Finset Nat) (j : Nat)
    (hj : j < (servedRows amount weights served).length) :
    (servedRows amount weights served)[j] =
      { part := amount * weights.getD j 0 / weights.sum, remainder := amount * weights.getD j 0 % weights.sum,
        extra := decide (j ∈ served) } := by
  simp [servedRows, List.getElem?_eq_getElem (by simpa using hj : j < weights.length)]

/-- The shares in `served` exist and come before every share that is not in it. -/
structure ServedFirst (amount : Nat) (weights : List Nat) (served : Finset Nat) : Prop where
  exist : ∀ j ∈ served, j < weights.length
  first : ∀ j ∈ served, ∀ k < weights.length, k ∉ served → ComesBefore amount weights j k

/-- The share served next: one that has received nothing and comes before every other such share. -/
theorem giveCent_servedRows {amount : Nat} {weights : List Nat} {served : Finset Nat}
    (h : ∃ j < weights.length, j ∉ served) :
    ∃ j < weights.length, j ∉ served ∧
      (∀ k < weights.length, k ∉ served → k ≠ j → ComesBefore amount weights j k) ∧
      giveCent (largestRemainder (servedRows amount weights served)) (servedRows amount weights served) =
        servedRows amount weights (insert j served) := by
  have hopen : ∃ x ∈ servedRows amount weights served, x.extra = false := by
    obtain ⟨j, hj, hj'⟩ := h
    exact ⟨_, List.getElem_mem (n := j) (by simpa using hj), by simpa using hj'⟩
  have hmax : ∃ x ∈ servedRows amount weights served,
      x.extra = false ∧ x.remainder = largestRemainder (servedRows amount weights served) := by
    rcases largestRemainder_cases (servedRows amount weights served) with hmax | ⟨-, hall⟩
    · exact hmax
    · obtain ⟨x, hx, he⟩ := hopen
      exact absurd (hall x hx) (by simp [he])
  obtain ⟨j, hj, he, hr, hfirst, hgive⟩ := giveCent_eq_set hmax
  refine ⟨j, by simpa using hj, by simpa using he, fun k hk hk' hkj => ?_, ?_⟩
  · have hk : k < (servedRows amount weights served).length := by simpa using hk
    have hek : (servedRows amount weights served)[k].extra = false := by simpa using hk'
    have hle := hr ▸ le_largestRemainder (List.getElem_mem hk) hek
    have hjk := fun heq => hfirst k hk hek (Eq.trans heq hr)
    simp only [servedRows_getElem] at hle hjk
    rcases hle.lt_or_eq with hlt | heq
    · exact .inl hlt
    · exact .inr ⟨heq.symm, lt_of_le_of_ne (hjk heq) (Ne.symm hkj)⟩
  · rw [hgive]
    refine List.ext_getElem (by simp) fun k hk _ => ?_
    by_cases hkj : j = k
    · subst hkj; simp
    · simp [hkj, Ne.symm hkj]

theorem ServedFirst.insert {amount : Nat} {weights : List Nat} {served : Finset Nat}
    (h : ServedFirst amount weights served) {j : Nat} (hj : j < weights.length)
    (hfirst : ∀ k < weights.length, k ∉ served → k ≠ j → ComesBefore amount weights j k) :
    ServedFirst amount weights (insert j served) where
  exist k hk := by
    rcases Finset.mem_insert.1 hk with rfl | hk
    · exact hj
    · exact h.exist k hk
  first i hi k hk hk' := by
    obtain ⟨hkj, hks⟩ : k ≠ j ∧ k ∉ served := by simpa using hk'
    rcases Finset.mem_insert.1 hi with rfl | hi
    · exact hfirst k hk hks hkj
    · exact h.first i hi k hk hks

theorem ServedFirst.card_le {amount : Nat} {weights : List Nat} {served : Finset Nat}
    (h : ServedFirst amount weights served) : served.card ≤ weights.length := by
  simpa using Finset.card_le_card (fun j hj => Finset.mem_range.2 (h.exist j hj))

/-- Handing out no more cents than there are shares without one serves that many more, in their order. -/
theorem handOut_servedRows {amount : Nat} {weights : List Nat} (cents : Nat) {served : Finset Nat}
    (h : ServedFirst amount weights served) (hfit : served.card + cents ≤ weights.length) :
    ∃ served', ServedFirst amount weights served' ∧ served'.card = served.card + cents ∧
      handOut cents (servedRows amount weights served) = servedRows amount weights served' := by
  induction cents generalizing served with
  | zero => exact ⟨served, h, rfl, rfl⟩
  | succ cents ih =>
    have hopen : ∃ j < weights.length, j ∉ served := by
      obtain ⟨j, hj, hj'⟩ := Finset.exists_mem_notMem_of_card_lt_card
        (show served.card < (Finset.range weights.length).card by simp; omega)
      exact ⟨j, Finset.mem_range.1 hj, hj'⟩
    obtain ⟨j, hj, hj', hfirst, hgive⟩ := giveCent_servedRows hopen
    have hcard := Finset.card_insert_of_notMem hj'
    obtain ⟨served', hs, hc, hrun⟩ := ih (h.insert hj hfirst) (by omega)
    exact ⟨served', hs, by omega, by rw [handOut, hgive, hrun]⟩

/-! ### Who has received a cent, by counting -/

theorem sharesBefore_eq_card (amount : Nat) (weights : List Nat) (j : Nat) :
    Statements.sharesBefore amount weights j =
      ((Finset.range weights.length).filter (fun k => ComesBefore amount weights k j)).card := rfl

/-- The shares that have received a cent are those with fewer shares before them than cents were handed out. -/
theorem ServedFirst.mem_iff {amount : Nat} {weights : List Nat} {served : Finset Nat}
    (h : ServedFirst amount weights served) {j : Nat} (hj : j < weights.length) :
    j ∈ served ↔ Statements.sharesBefore amount weights j < served.card := by
  rw [sharesBefore_eq_card]
  constructor
  · intro hmem
    refine Finset.card_lt_card ((Finset.ssubset_iff_of_subset fun k hk => ?_).2 ⟨j, hmem, by simp [ComesBefore]⟩)
    obtain ⟨hk, hkj⟩ := Finset.mem_filter.1 hk
    by_contra hout
    have hjk := h.first j hmem k (Finset.mem_range.1 hk) hout
    simp only [ComesBefore] at hkj hjk
    omega
  · contrapose!
    exact fun hout => Finset.card_le_card fun k hk =>
      Finset.mem_filter.2 ⟨Finset.mem_range.2 (h.exist k hk), h.first k hk j hj hout⟩

/-! ### The leftover -/

/-- The cents that the division leaves to hand out (R114). -/
def leftover (amount : Nat) (weights : List Nat) : Nat :=
  amount - (weights.map (fun w => amount * w / weights.sum)).sum

theorem sum_div_mul_add_sum_mod (amount divisor : Nat) (weights : List Nat) :
    (weights.map (fun w => amount * w / divisor)).sum * divisor + (weights.map (fun w => amount * w % divisor)).sum =
      amount * weights.sum := by
  induction weights with
  | nil => simp
  | cons w rest ih =>
    have := Nat.div_add_mod' (amount * w) divisor
    simp only [List.map_cons, List.sum_cons, add_mul, mul_add]
    omega

/-- The parts before the leftover is handed out do not exceed the amount. -/
theorem sum_parts_add_leftover (amount : Nat) {weights : List Nat} (h : weights.sum ≠ 0) :
    (weights.map (fun w => amount * w / weights.sum)).sum + leftover amount weights = amount := by
  have hle : (weights.map (fun w => amount * w / weights.sum)).sum * weights.sum ≤ amount * weights.sum :=
    (sum_div_mul_add_sum_mod amount weights.sum weights) ▸ Nat.le_add_right _ _
  exact Nat.add_sub_of_le (Nat.le_of_mul_le_mul_right hle (Nat.pos_of_ne_zero h))

/-- The leftover cents times the divisor are the remainders added up. -/
theorem leftover_mul_sum (amount : Nat) {weights : List Nat} (h : weights.sum ≠ 0) :
    leftover amount weights * weights.sum = (weights.map (fun w => amount * w % weights.sum)).sum := by
  have hsum := sum_div_mul_add_sum_mod amount weights.sum weights
  have hparts := congrArg (· * weights.sum) (sum_parts_add_leftover amount h)
  simp only [add_mul] at hparts
  omega

/-- A list's sum, share by share. -/
theorem sum_map_eq_sum_range (f : Nat → Nat) (weights : List Nat) :
    (weights.map f).sum = ∑ k ∈ Finset.range weights.length, f (weights.getD k 0) := by
  rw [Finset.sum_range, ← Fin.sum_univ_fun_getElem]
  simp

/-- No more cents are left over than there are shares with a remainder, so none is left for a share without one. -/
theorem leftover_le_card_remainders (amount : Nat) {weights : List Nat} (h : weights.sum ≠ 0) :
    leftover amount weights ≤
      ((Finset.range weights.length).filter (fun k => amount * weights.getD k 0 % weights.sum ≠ 0)).card := by
  refine Nat.le_of_mul_le_mul_right ?_ (Nat.pos_of_ne_zero h)
  rw [leftover_mul_sum amount h, sum_map_eq_sum_range, ← Finset.sum_filter_ne_zero, ← smul_eq_mul]
  exact Finset.sum_le_card_nsmul _ _ _ fun k _ => (Nat.mod_lt _ (Nat.pos_of_ne_zero h)).le

theorem leftover_le_length (amount : Nat) {weights : List Nat} (h : weights.sum ≠ 0) :
    leftover amount weights ≤ weights.length :=
  (leftover_le_card_remainders amount h).trans (by simpa using Finset.card_filter_le (Finset.range weights.length) _)

/-- Every share with a remainder comes before a share without one. -/
theorem leftover_le_sharesBefore {amount : Nat} {weights : List Nat} (h : weights.sum ≠ 0) {j : Nat}
    (hj : amount * weights.getD j 0 % weights.sum = 0) :
    leftover amount weights ≤ Statements.sharesBefore amount weights j := by
  refine (leftover_le_card_remainders amount h).trans ?_
  rw [sharesBefore_eq_card]
  exact Finset.card_le_card (Finset.monotone_filter_right _ fun k _ hk => .inl (by omega))

/-! ### The procedure as a whole -/

theorem apportion_of_nothing {amount : Nat} {weights : List Nat} (h : amount = 0 ∨ weights.sum = 0) :
    apportion amount weights = weights.map (fun _ => 0) := if_pos h

/-- The procedure serves as many shares as cents are left over, the first in their order. -/
theorem apportion_eq_servedRows {amount : Nat} {weights : List Nat} (ha : amount ≠ 0) (hw : weights.sum ≠ 0) :
    ∃ served, ServedFirst amount weights served ∧ served.card = leftover amount weights ∧
      apportion amount weights = (servedRows amount weights served).map Portion.value := by
  have hnone : ServedFirst amount weights ∅ := ⟨by simp, by simp⟩
  obtain ⟨served, hs, hc, hrun⟩ :=
    handOut_servedRows (leftover amount weights) hnone (by simpa using leftover_le_length amount hw)
  refine ⟨served, hs, by simpa using hc, ?_⟩
  have hstart : weights.map (fun w =>
      ({ part := amount * w / weights.sum, remainder := amount * w % weights.sum, extra := false } : Portion)) =
      servedRows amount weights ∅ := List.ext_getElem (by simp) (by simp +contextual [servedRows])
  unfold apportion
  rw [if_neg (by simp [ha, hw]), ← hrun, ← hstart]
  simp [leftover, Function.comp_def]

@[simp] theorem apportion_length (amount : Nat) (weights : List Nat) :
    (apportion amount weights).length = weights.length := by
  by_cases h : amount = 0 ∨ weights.sum = 0
  · simp [apportion_of_nothing h]
  · push Not at h
    obtain ⟨served, -, -, heq⟩ := apportion_eq_servedRows h.1 h.2
    simp [heq]

/-- A share's part: its product divided, and a cent more if fewer shares come before it than cents are left over (R114). -/
theorem apportion_getD {amount : Nat} {weights : List Nat} (ha : amount ≠ 0) (hw : weights.sum ≠ 0) {j : Nat}
    (hj : j < weights.length) :
    (apportion amount weights).getD j 0 = amount * weights.getD j 0 / weights.sum +
      if Statements.sharesBefore amount weights j < leftover amount weights then 1 else 0 := by
  obtain ⟨served, hs, hc, heq⟩ := apportion_eq_servedRows ha hw
  rw [← hc, heq, List.getD_eq_getElem _ _ (by simpa using hj), List.getElem_map, servedRows_getElem, Portion.value]
  by_cases hmem : j ∈ served
  · simp [hmem, (hs.mem_iff hj).1 hmem]
  · simp [hmem, mt (hs.mem_iff hj).2 hmem]

/-- The parts add up to the amount. -/
theorem apportion_sum {amount : Nat} {weights : List Nat} (hw : weights.sum ≠ 0) :
    (apportion amount weights).sum = amount := by
  by_cases ha : amount = 0
  · rw [apportion_of_nothing (.inl ha)]; simp [ha]
  obtain ⟨served, hs, hc, heq⟩ := apportion_eq_servedRows ha hw
  have hvalue : apportion amount weights = (List.range weights.length).map (fun j =>
      amount * weights.getD j 0 / weights.sum + if j ∈ served then 1 else 0) := by
    refine List.ext_getElem (by simp) fun j hj _ => ?_
    simp only [heq, List.getElem_map, servedRows_getElem, Portion.value, List.getElem_range]
    by_cases hmem : j ∈ served <;> simp [hmem]
  have hserved : (∑ j ∈ Finset.range weights.length, if j ∈ served then 1 else 0) = served.card := by
    have : (Finset.range weights.length).filter (· ∈ served) = served := by
      ext j; simpa using hs.exist j
    rw [← Finset.card_filter, this]
  calc (apportion amount weights).sum
      = ∑ j ∈ Finset.range weights.length, (amount * weights.getD j 0 / weights.sum + if j ∈ served then 1 else 0) := by
        rw [hvalue]; rfl
    _ = (weights.map (fun w => amount * w / weights.sum)).sum + leftover amount weights := by
        rw [Finset.sum_add_distrib, hserved, hc, sum_map_eq_sum_range]
    _ = amount := sum_parts_add_leftover amount hw

/-- A share of weight 0 receives nothing. -/
theorem apportion_getD_of_weight_zero {amount : Nat} {weights : List Nat} (ha : amount ≠ 0) (hw : weights.sum ≠ 0) {j : Nat}
    (hj : j < weights.length) (h0 : weights.getD j 0 = 0) : (apportion amount weights).getD j 0 = 0 := by
  have hlate := leftover_le_sharesBefore (amount := amount) hw (j := j) (by simp only [h0, mul_zero, Nat.zero_mod])
  simp only [apportion_getD ha hw hj, h0, if_neg (Nat.not_lt.2 hlate), mul_zero, Nat.zero_div, add_zero]

/-- Settles O24: the set of served shares is kept closed under the order of R114, so counting says who is in it. -/
theorem apportionFollowsLargestRemainders : Obligations.ApportionFollowsLargestRemainders := by
  intro amount weights
  refine ⟨apportion_of_nothing, fun ha hw => ⟨apportion_length amount weights, apportion_sum hw, fun j hj => ⟨?_, ?_⟩⟩⟩
  · exact apportion_getD ha hw hj
  · exact apportion_getD_of_weight_zero ha hw hj

/-! ### EVEN splits (R116) -/

@[simp] theorem newShare_due (due : Nat) (components : Option Amounts) : (newShare due components).due = due := rfl
@[simp] theorem newShare_components (due : Nat) (components : Option Amounts) :
    (newShare due components).components = components := rfl

theorem evenShares_dues (t : Totals) (n : Nat) : (evenShares t n).map Share.due = apportion t.total (evenWeights n) :=
  List.ext_getElem (by simp [evenShares, evenWeights]) fun j hj hj' => by
    simp [evenShares, List.getElem?_eq_getElem hj']

/-- With equal weights the shares before a share are those with a lower index. -/
theorem sharesBefore_evenWeights (amount : Nat) {n j : Nat} (hj : j < n) :
    Statements.sharesBefore amount (evenWeights n) j = j := by
  have hbefore : (Finset.range n).filter (fun k => ComesBefore amount (evenWeights n) k j) = Finset.range j := by
    ext k
    have hweight (i : Nat) (hi : i < n) : (evenWeights n).getD i 0 = 1 := by simp [evenWeights, hi]
    simp only [Finset.mem_filter, Finset.mem_range, ComesBefore]
    constructor
    · rintro ⟨hk, hkj⟩
      rw [hweight k hk, hweight j hj] at hkj
      omega
    · intro hkj
      have hk := hkj.trans hj
      exact ⟨hk, .inr ⟨by rw [hweight k hk, hweight j hj], hkj⟩⟩
  rw [sharesBefore_eq_card, show (evenWeights n).length = n from List.length_replicate, hbefore, Finset.card_range]

theorem leftover_evenWeights (amount n : Nat) : leftover amount (evenWeights n) = amount % n := by
  have := Nat.div_add_mod amount n
  simp only [leftover, evenWeights, List.map_replicate, List.sum_replicate, smul_eq_mul, mul_one]
  omega

/-- Shares 1 to k are due one cent more than the others, where k is the remainder of the division by n (R116). -/
theorem apportion_evenWeights (amount : Nat) {n : Nat} (hn : 1 ≤ n) :
    apportion amount (evenWeights n) = (List.range n).map (fun j => amount / n + if j < amount % n then 1 else 0) := by
  by_cases ha : amount = 0
  · rw [apportion_of_nothing (.inl ha)]
    simp [ha, evenWeights, List.map_const']
  have hsum : (evenWeights n).sum = n := by simp [evenWeights]
  refine List.ext_getElem (by simp [evenWeights]) fun j hj _ => ?_
  have hjn : j < n := by simpa [evenWeights] using hj
  have hshare := apportion_getD ha (by omega : (evenWeights n).sum ≠ 0) (by simpa using hj)
  rw [List.getD_eq_getElem _ _ hj, hsum, sharesBefore_evenWeights amount hjn, leftover_evenWeights] at hshare
  simpa [evenWeights, hjn] using hshare

/-- Settles O25: with equal weights all remainders are the same, so the index alone decides who receives a leftover cent. -/
theorem evenDuesLeaveLeftoverToLowest : Obligations.EvenDuesLeaveLeftoverToLowest := by
  intro t n hn _
  have hdues (m : Nat) (hm : 1 ≤ m) : (evenShares t m).map Share.due =
      (List.range m).map (fun j => t.total / m + if j < t.total % m then 1 else 0) :=
    (evenShares_dues t m).trans (apportion_evenWeights t.total hm)
  refine ⟨evenShares_dues t n, hdues n hn, fun ht => ?_, ?_⟩
  · rw [hdues 4 (by decide), ht]; decide
  · rw [hdues 1 (by decide)]; simp [Nat.mod_one]

/-! ### BY-AMOUNT splits (R120) -/

theorem amountShares_dues (t : Totals) (amounts : List Nat) :
    (amountShares t amounts).map Share.due = amounts ++ [t.total - amounts.sum] := by
  simp [amountShares, Function.comp_def]

theorem amountShares_components {t : Totals} {amounts : List Nat} {x : Share} (hx : x ∈ amountShares t amounts) :
    x.components = none := by
  obtain ⟨d, -, rfl⟩ := List.mem_map.1 hx
  exact newShare_components d none

theorem makePlan_byAmount (n : Nat) {amounts : List Nat} {r : TabRecord} (h : amounts.sum ≤ r.totals.total) :
    makePlan (.byAmount n amounts) r = .plan { mode := .byAmount, shares := amountShares r.totals amounts } :=
  if_neg (Nat.not_lt.2 h)

theorem makePlan_byAmount_overTotal (n : Nat) {amounts : List Nat} {r : TabRecord} (h : r.totals.total < amounts.sum) :
    makePlan (.byAmount n amounts) r = .refused .overTotal 0 r.totals.total := if_pos h

/-! ### A SPLIT at a READY slot with nobody waiting (R21, R115, R122, R128) -/

/-- A request that reaches such a slot executes at once, and the slot is most recent; a SPLIT when the check has passed. -/
theorem cacheRequest_atReadySlot {s : State} {p : Port} {tab : Nat} {i : SlotId} {r : TabRecord} (h : AtReadySlot s p tab i r)
    (request : TabRequest) (hc : request.isSplit = true → s.check = .passed) :
    s.cacheRequest tab { port := p, request := request } = perform i p request (s.touch i) := by
  obtain ⟨-, -, hslot, hready, htab, -, hwaits, hengine, -⟩ := h
  have hjoin : s.cacheRequest tab { port := p, request := request } =
      (s.setSlot i { s.slot i with waits := [{ port := p, request := request }] }).executeHead i := by
    simp [State.cacheRequest, State.atOwnSlot, hslot, htab, hready, hwaits]
  have hback : (s.setSlot i { s.slot i with waits := [{ port := p, request := request }] }).setSlot i
      { (s.setSlot i { s.slot i with waits := [{ port := p, request := request }] }).slot i with waits := [] } = s := by
    rw [State.slot_setSlot_self, State.setSlot_setSlot, ← hwaits]
    exact s.setSlot_slot i
  rw [hjoin, State.executeHead_runs _ i (w := { port := p, request := request }) (rest := []) (by simpa using hready) (by simp)
    (by exact hengine) (by exact hc), hback]
  rfl

/-- A SPLIT frame with good fields executes at such a slot, at a port that has taken it. -/
theorem exec_split_atReadySlot {s : State} {p : Port} {tag : Byte} {body : List Byte} {tab : Nat} {spec : SplitSpec} {i : SlotId}
    {r : TabRecord} (hb : body.length ≤ maxBody) (ha : Admitted s p .split) (hc : s.check = .passed)
    (hread : readSplit body = some (tab, spec)) (hat : AtReadySlot s p tab i r) (hopen : (s.dir tab).state = .opened) :
    exec (.split p tag body) s = .next (performSplit i p tab spec ((afterTaking s p .split tag).touch i)) := by
  obtain ⟨hphase, hrole, hfree⟩ := ha
  have hjudge : (afterTaking s p .split tag).judgeTaken p tab = none := by
    obtain ⟨hisTab, hgroup, -⟩ := hat
    have hgroup : (afterTaking s p .split tag).sameGroup p tab = true := hgroup
    have hopen : ((afterTaking s p .split tag).dir tab).state = .opened := hopen
    simp [State.judgeTaken, hisTab, hgroup, hopen]
  have hat : AtReadySlot (afterTaking s p .split tag) p tab i r := hat
  calc exec (.split p tag body) s
      = .next (receive .split takeSplit p tag body s) := rfl
    _ = .next (takeSplit p body (afterTaking s p .split tag)) :=
        congrArg _ (receive_taken takeSplit hb hrole nofun (.inl hphase) hfree)
    _ = .next ((afterTaking s p .split tag).cacheRequest tab { port := p, request := .split tab spec }) := by
        simp only [takeSplit, hread, State.toCache, hjudge]
    _ = .next (performSplit i p tab spec ((afterTaking s p .split tag).touch i)) :=
        congrArg _ (cacheRequest_atReadySlot hat _ fun _ => hc)

/-- A mode's refusal on an OPEN tab is answered and nothing more. -/
theorem performSplit_refused {s : State} {p : Port} {tab : Nat} {spec : SplitSpec} {i : SlotId} {r : TabRecord}
    {status : Status} {index figure : Nat} (hgroup : s.sameGroup p tab = true) (hopen : (s.dir tab).state = .opened)
    (hhold : s.holdsAnother p tab = false) (hrec : (s.slot i).record = some r)
    (hplan : makePlan spec r = .refused status index figure) :
    performSplit i p tab spec s = s.refuse p status (splitDetail tab index figure) := by
  have hjudge : s.judgeExecution .split p tab = none := by
    simp [State.judgeExecution, State.judgeState, hgroup, hopen, hhold]
  simp [performSplit, hjudge, hrec, hopen, hplan]

/-- A SPLIT that its mode refuses on an OPEN tab changes nothing but the recency order and its own port. -/
theorem exec_split_refused {s : State} {p : Port} {tag : Byte} {body : List Byte} {tab : Nat} {spec : SplitSpec} {i : SlotId}
    {r : TabRecord} {status : Status} {index figure : Nat} (hb : body.length ≤ maxBody) (ha : Admitted s p .split)
    (hc : s.check = .passed) (hread : readSplit body = some (tab, spec)) (hat : AtReadySlot s p tab i r)
    (hopen : (s.dir tab).state = .opened) (hhold : s.holdsAnother p tab = false)
    (hplan : makePlan spec r = .refused status index figure) :
    exec (.split p tag body) s = .next ((s.setPort p
      (repliedPort (s.port p) .split tag status (splitDetail tab index figure).bytes)).touch i) := by
  have hport : ((afterTaking s p .split tag).touch i).port p = takenPort (s.port p) .split tag :=
    s.port_setPort_self p _
  have hrun : performSplit i p tab spec ((afterTaking s p .split tag).touch i) =
      ((afterTaking s p .split tag).touch i).refuse p status (splitDetail tab index figure) := by
    obtain ⟨-, hgroup, -, -, -, hrec, -⟩ := hat
    exact performSplit_refused (r := r) hgroup hopen hhold hrec hplan
  rw [exec_split_atReadySlot hb ha hc hread hat hopen, hrun, State.refuse,
    State.reply_of_request _ _ _ _ (congrArg LanePort.request hport), hport]
  exact congrArg (fun t => Host.Outcome.next (State.touch t i)) (s.setPort_setPort p _ _)

/-- Settles O27: the plan is read off its definition, and the refusal off the SPLIT's run at the slot. -/
theorem byAmountSharesTakeTheRest : Obligations.ByAmountSharesTakeTheRest := by
  refine ⟨fun n amounts r h => ?_, fun n amounts r h => makePlan_byAmount_overTotal n h, ?_⟩
  · refine ⟨_, makePlan_byAmount n h, rfl, amountShares_dues r.totals amounts, fun x hx => amountShares_components hx, ?_⟩
    intro heq
    rw [amountShares_dues, heq, Nat.sub_self, List.getLast?_concat]
  · intro s p tag body tab n amounts i r hb ha hc hread hat hopen hhold hover
    refine ⟨_, exec_split_refused hb ha hc hread hat hopen hhold (makePlan_byAmount_overTotal n hover), rfl, ?_, ?_, ?_⟩
    · exact s.port_setPort_self p _
    · exact fun q hq => s.port_setPort_other hq _
    · rfl

end Sys2Proof.SplitArithmetic
end

section
/-! PROOFS. What every operation keeps, each invariant on its own: the relation `Keeps`, and how the operations on ports, the directory,
slots, items, notices and lists keep it. The kitchen unit's operations follow in the next part. -/

namespace Sys2Proof.Invariants

-- One theorem after another: as many checks at once take a thread each.
set_option Elab.async false

open Sys2Proof Sys2Proof.Machine Sys2Proof.Statements

/-- What an operation that leads from `s` to `t` keeps, each invariant on its own. `ok` says that the record which the memory port brings,
if it brings one, is in range (assumption 3). A field left out is kept because nothing it speaks of has changed. -/
structure Keeps (ok : Prop) (s t : State) : Prop where
  pending : t.pending = s.pending := by rfl
  room    : TransmitRoom s → TransmitRoom t := by exact fun h => h
  kitchen : KitchenFits s → KitchenFits t := by
    exact fun h => ⟨h.stations, h.overflow, h.numbers, h.places, h.counter⟩
  lists   : ListsFit s → ListsFit t := by
    exact fun h => ⟨h.notices, h.availList, h.waits, h.engine, h.running, h.recency⟩
  stock   : StockBalances s → StockBalances t := by exact fun h => h
  records : ok → RecordsFit s → RecordsFit t := by exact fun _ h => ⟨h.cache, h.memory⟩
  tables  : TablesInForm s → TablesInForm t := by
    exact fun h => ⟨h.tabMemory, h.items, h.directory, h.listed⟩

variable {ok : Prop} {a s t : State}

theorem Keeps.refl (s : State) : Keeps ok s s := {}

theorem Keeps.trans {u : State} (h : Keeps ok s t) (k : Keeps ok t u) : Keeps ok s u where
  pending := k.pending.trans h.pending
  room := k.room ∘ h.room
  kitchen := k.kitchen ∘ h.kitchen
  lists := k.lists ∘ h.lists
  stock := k.stock ∘ h.stock
  records hok := k.records hok ∘ h.records hok
  tables := k.tables ∘ h.tables

/-- A fold of operations keeps what each of them keeps. -/
theorem Keeps.foldl {α : Type} {f : State → α → State} {l : List α} (h : Keeps ok a s)
    (hf : ∀ u, ∀ x ∈ l, Keeps ok u (f u x)) : Keeps ok a (l.foldl f s) := by
  induction l generalizing s with
  | nil => exact h
  | cons x l ih =>
    exact ih (h.trans (hf s x List.mem_cons_self)) fun u y hy => hf u y (List.mem_cons_of_mem _ hy)

/-! ### Ports (R148) -/

/-- A frame put into a queue counts unless it is the slot's reply. -/
theorem otherFrames_put_length (x : LanePort) (f : TxFrame) :
    (otherFrames (x.put f)).length = (otherFrames x).length + if f.source = .slotReply then 0 else 1 := by
  have h := ((put_frames x f).filter (fun g => decide (g.source ≠ .slotReply))).length_eq
  unfold otherFrames
  rw [h]
  by_cases hf : f.source = .slotReply <;> simp [hf]

theorem hasRoom_iff (x : LanePort) : x.hasRoom = true ↔ (otherFrames x).length < 7 := by
  simp [LanePort.hasRoom, otherFrames]

theorem Keeps.setPort (h : Keeps ok a s) {p : Port} {x : LanePort}
    (hx : (otherFrames (s.port p)).length ≤ 7 → (otherFrames x).length ≤ 7) : Keeps ok a (s.setPort p x) :=
  h.trans
    { room := fun hr q => by
        by_cases hq : q = p
        · subst hq; rw [State.port_setPort_self]; exact hx (hr q)
        · rw [State.port_setPort_other _ hq]; exact hr q }

theorem Keeps.reply (h : Keeps ok a s) (p : Port) (st : Status) (fields : List Byte) :
    Keeps ok a (s.reply p st fields) := by
  rcases s.reply_spec p st fields with ⟨r, -, e⟩ | ⟨-, e⟩ <;> rw [e]
  · exact h.setPort fun hr => by simpa [otherFrames_put_length] using hr
  · exact h

theorem Keeps.refuse (h : Keeps ok a s) (p : Port) (st : Status) (d : Detail) : Keeps ok a (s.refuse p st d) :=
  h.reply p st d.bytes

theorem Keeps.answer (h : Keeps ok a s) (p : Port) (st : Status) (kind tag : Byte) :
    Keeps ok a (s.answer p st kind tag) := by
  rcases s.answer_spec p st kind tag with ⟨hroom, e⟩ | ⟨-, e⟩ <;> rw [e]
  · exact h.setPort fun _ => by simpa [otherFrames_put_length] using (hasRoom_iff _).1 hroom
  · exact h

theorem Keeps.sendOwn (h : Keeps ok a s) {p : Port} {kind : Kind} {body : List Byte} {source : TxSource}
    (hroom : (s.port p).hasRoom = true) : Keeps ok a (s.sendOwn p kind body source) :=
  h.setPort fun _ => by
    have hlen : (otherFrames ((s.port p).put
        { kind := kind, tag := BitVec.ofNat 8 (s.port p).tagCount, body := body, source := source })).length ≤ 7 := by
      have := (hasRoom_iff _).1 hroom
      rw [otherFrames_put_length]
      split <;> omega
    exact hlen

theorem Keeps.markStale (h : Keeps ok a s) (p : Port) : Keeps ok a (s.markStale p) := h.setPort fun hr => hr

theorem Keeps.delimit (h : Keeps ok a s) (p : Port) : Keeps ok a (s.delimit p) := h.setPort fun hr => hr

theorem Keeps.occupy (h : Keeps ok a s) (p : Port) (k : Kind) (tag : Byte) : Keeps ok a (s.occupy p k tag) :=
  h.setPort fun hr => hr

theorem hasRoom_of_no_frames {x : LanePort} (h : x.frames.isEmpty = true) : x.hasRoom = true := by
  rw [hasRoom_iff, otherFrames, List.isEmpty_iff.1 h]; decide

/-- The frames of a port from which the frame on the line has left are among those it had. -/
theorem otherFrames_arbitrate_length (x : LanePort) : (otherFrames x.arbitrate).length = (otherFrames x).length :=
  ((arbitrate_frames x).filter _).length_eq

theorem Keeps.frameLeaves (h : Keeps ok a s) (p : Port) : Keeps ok a (s.frameLeaves p) := by
  unfold State.frameLeaves
  cases hs : (s.port p).sending with
  | none => simpa [hs] using h
  | some f =>
    simp only [hs]
    refine h.setPort fun hr => ?_
    have hrest : (otherFrames { s.port p with sending := none }).length ≤ (otherFrames (s.port p)).length :=
      List.Sublist.length_le (List.Sublist.filter _ (by simp [LanePort.frames, hs]))
    exact (otherFrames_arbitrate_length _).trans_le (hrest.trans hr)

theorem Keeps.fold_markStale (h : Keeps ok a s) (ports : List Port) : Keeps ok a (ports.foldl State.markStale s) :=
  h.foldl fun u p _ => (Keeps.refl u).markStale p

/-! ### The directory and the hold table -/

theorem listed_setDir {s : State} (h : ∀ e ∈ s.directory, e.2 ≠ DirEntry.formatted) (t : Nat) (e : DirEntry) :
    ∀ x ∈ (s.setDir t e).directory, x.2 ≠ DirEntry.formatted := by
  intro x hx
  unfold State.setDir at hx
  by_cases he : e = DirEntry.formatted
  · exact h x (mem_tableDrop (by simpa [he] using hx))
  · rcases mem_tablePut (by simpa [he] using hx) with rfl | hx
    · exact he
    · exact h x hx

theorem Keeps.setDir (h : Keeps ok a s) (t : Nat) (e : DirEntry) : Keeps ok a (s.setDir t e) :=
  h.trans { tables := fun k => ⟨k.tabMemory, k.items, s.setDir_inForm t e k.directory, listed_setDir k.listed t e⟩ }

theorem Keeps.setHold (h : Keeps ok a s) (p : Port) (x : Option Hold) : Keeps ok a (s.setHold p x) := h.trans {}

theorem Keeps.setRole (h : Keeps ok a s) (p : Port) (r : PortRole) : Keeps ok a (s.setRole p r) := h.trans {}

theorem Keeps.reach (h : Keeps ok a s) (m : Nat) : Keeps ok a (s.reach m) := h.trans {}

theorem Keeps.freeController (h : Keeps ok a s) : Keeps ok a s.freeController := h.trans {}

theorem Keeps.enqueueOp (h : Keeps ok a s) (op : MemOp) : Keeps ok a (s.enqueueOp op) := h.trans {}

theorem Keeps.setCached (h : Keeps ok a s) (t : Nat) (i : Option SlotId) : Keeps ok a (s.setCached t i) :=
  h.setDir _ _

theorem Keeps.raiseLive (h : Keeps ok a s) (t k : Nat) : Keeps ok a (s.raiseLive t k) := h.setDir _ _

theorem Keeps.lowerLive (h : Keeps ok a s) (t : Nat) : Keeps ok a (s.lowerLive t) := h.setDir _ _

theorem Keeps.takeHold (h : Keeps ok a s) (p : Port) (t : Nat) : Keeps ok a (s.takeHold p t) := (h.setHold _ _).setDir _ _

theorem Keeps.restartHold (h : Keeps ok a s) (p : Port) : Keeps ok a (s.restartHold p) := by
  unfold State.restartHold
  split
  · exact h
  · exact h.setHold _ _

theorem Keeps.endHold (h : Keeps ok a s) (t : Nat) : Keeps ok a (s.endHold t) := by
  unfold State.endHold
  split
  · exact h
  · exact (h.setHold _ _).setDir _ _

theorem Keeps.uncache (h : Keeps ok a s) (i : SlotId) : Keeps ok a (s.uncache i) := by
  unfold State.uncache
  split
  · exact h
  · exact h.setCached _ _

/-! ### Slots and the recency order -/

theorem Keeps.setSlot (h : Keeps ok a s) {i : SlotId} {x : CacheSlot}
    (hw : (s.slot i).waits.length ≤ 4 → x.waits.length ≤ 4)
    (hr : ok → RecordsFit a → ∀ r, x.record = some r → RecordFits r) : Keeps ok a (s.setSlot i x) where
  pending := h.pending
  room := h.room
  kitchen k := let k := h.kitchen k; ⟨k.stations, k.overflow, k.numbers, k.places, k.counter⟩
  lists k := by
    have k := h.lists k
    refine ⟨k.notices, k.availList, fun j => ?_, k.engine, k.running, k.recency⟩
    by_cases hj : j = i
    · subst hj; rw [State.slot_setSlot_self]; exact hw (k.waits j)
    · rw [State.slot_setSlot_other _ hj]; exact k.waits j
  stock := h.stock
  records hok k := by
    refine ⟨fun j r => ?_, (h.records hok k).memory⟩
    by_cases hj : j = i
    · subst hj; rw [State.slot_setSlot_self]; exact hr hok k r
    · rw [State.slot_setSlot_other _ hj]; exact (h.records hok k).cache j r
  tables k := let k := h.tables k; ⟨k.tabMemory, k.items, k.directory, k.listed⟩

/-- A slot that keeps its record. -/
theorem Keeps.setSlot_same (h : Keeps ok a s) {i : SlotId} {x : CacheSlot}
    (hw : (s.slot i).waits.length ≤ 4 → x.waits.length ≤ 4) (hr : x.record = (s.slot i).record) :
    Keeps ok a (s.setSlot i x) :=
  h.setSlot hw fun hok k r e => (h.records hok k).cache i r (hr ▸ e)

theorem Keeps.clearSlot (h : Keeps ok a s) (i : SlotId) : Keeps ok a (s.clearSlot i) :=
  h.setSlot (fun _ => Nat.zero_le _) nofun

theorem Keeps.writeRecord (h : Keeps ok a s) {i : SlotId} {r : TabRecord} (hr : ok → RecordsFit a → RecordFits r) :
    Keeps ok a (s.writeRecord i r) :=
  h.setSlot id fun hok k x e => by cases e; exact hr hok k

theorem Keeps.popWaiter (h : Keeps ok a s) (i : SlotId) : Keeps ok a (s.popWaiter i) :=
  h.setSlot_same (fun k => by simpa using Nat.le_succ_of_le k) rfl

theorem touch_perm {s : State} (h : s.recency.Perm allSlots) (i : SlotId) : (s.touch i).recency.Perm allSlots := by
  have hnodup : s.recency.Nodup := h.nodup_iff.2 (List.nodup_finRange 8)
  have hi : i ∈ s.recency := h.mem_iff.2 (List.mem_finRange i)
  have herase : s.recency.filter (fun j => decide (j ≠ i)) = s.recency.erase i := by
    rw [hnodup.erase_eq_filter]; congr 1; ext j; by_cases hj : j = i <;> simp [hj]
  calc s.recency.filter (fun j => j ≠ i) ++ [i]
      = s.recency.erase i ++ [i] := by rw [herase]
    _ |>.Perm (i :: s.recency.erase i) := List.perm_append_singleton _ _
    _ |>.Perm s.recency := (List.perm_cons_erase hi).symm
    _ |>.Perm allSlots := h

theorem Keeps.touch (h : Keeps ok a s) (i : SlotId) : Keeps ok a (s.touch i) :=
  h.trans { lists := fun k => ⟨k.notices, k.availList, k.waits, k.engine, k.running, touch_perm k.recency i⟩ }

theorem Keeps.store (h : Keeps ok a s) {t : Nat} {cell : StoredRecord} (hr : ok → RecordsFit a → RecordFits cell.record) :
    Keeps ok a (s.store t cell) where
  pending := h.pending
  room := h.room
  kitchen k := let k := h.kitchen k; ⟨k.stations, k.overflow, k.numbers, k.places, k.counter⟩
  lists k := let k := h.lists k; ⟨k.notices, k.availList, k.waits, k.engine, k.running, k.recency⟩
  stock := h.stock
  records hok k := by
    refine ⟨(h.records hok k).cache, fun e he => ?_⟩
    rcases mem_tablePut he with rfl | he
    · exact hr hok k
    · exact (h.records hok k).memory e he
  tables k := let k := h.tables k; ⟨store_inForm s t cell k.tabMemory, k.items, k.directory, k.listed⟩

/-! ### Notices, items and availability -/

theorem Keeps.raise (h : Keeps ok a s) (n : Notice) : Keeps ok a (s.raise n) := by
  rcases s.raise_spec n with ⟨-, e⟩ | ⟨-, hl, e⟩ | ⟨-, -, e⟩ <;> rw [e]
  · exact h
  · exact h.trans
      { lists := fun k => ⟨by simpa using hl, k.availList, k.waits, k.engine, k.running, k.recency⟩ }
  · exact h.trans {}

theorem mem_setItem {s : State} {c : Nat} {x : Option Item} {e : Nat × Item} (h : e ∈ (s.setItem c x).items) :
    x = some e.2 ∨ e ∈ s.items := by
  unfold State.setItem at h
  cases x with
  | none => exact .inr (mem_tableDrop h)
  | some i =>
    rcases mem_tablePut h with rfl | h
    · exact .inl rfl
    · exact .inr h

theorem Keeps.setItem (h : Keeps ok a s) {c : Nat} {x : Option Item}
    (hx : StockBalances s → ∀ i, x = some i → ∀ t, i.tracking = some t → t.balanced) : Keeps ok a (s.setItem c x) :=
  h.trans
    { stock := fun k e he => by
        rcases mem_setItem he with hi | he
        · exact hx k e.2 hi
        · exact k e he
      tables := fun k => ⟨k.tabMemory, s.setItem_inForm c x k.items, k.directory, k.listed⟩ }

theorem mem_of_tableFind {α : Type} {k : Nat} {v : α} {l : List (Nat × α)} (h : tableFind k l = some v) : (k, v) ∈ l := by
  induction l with
  | nil => simp [tableFind] at h
  | cons e rest ih =>
    obtain ⟨j, w⟩ := e
    by_cases hj : j = k
    · simp [tableFind, hj] at h; simp [hj, h]
    · simp [tableFind, hj] at h; simp [ih h]

theorem balanced_of_item {s : State} (h : StockBalances s) {c : Nat} {i : Item} {t : Tracking} (hi : s.item c = some i)
    (ht : i.tracking = some t) : t.balanced := h _ (mem_of_tableFind hi) t ht

theorem Keeps.latchChange (h : Keeps ok a s) (e : AvailEntry) : Keeps ok a (s.latchChange e) := by
  unfold State.latchChange
  split
  · exact h.trans
      { lists := fun k => ⟨k.notices, by simpa using k.availList, k.waits, k.engine, k.running, k.recency⟩ }
  · split
    · rename_i hlen
      refine Keeps.raise (h.trans ?_) _
      exact { lists := fun k => ⟨k.notices, by simpa using hlen, k.waits, k.engine, k.running, k.recency⟩ }
    · refine Keeps.raise ((h.fold_markStale s.tillPorts).trans ?_) _
      exact { lists := fun k => ⟨k.notices, by simp, k.waits, k.engine, k.running, k.recency⟩ }

theorem Keeps.latchItem (h : Keeps ok a s) (before : State) (c : Nat) : Keeps ok a (s.latchItem before c) := by
  unfold State.latchItem
  split
  · exact h
  · exact h.latchChange _

theorem Keeps.latchItems (h : Keeps ok a s) (before : State) (codes : List Nat) : Keeps ok a (s.latchItems before codes) :=
  h.foldl fun u c _ => (Keeps.refl u).latchItem before c

/-- A tracking part that is changed stays balanced. -/
theorem Keeps.mapTracking (h : Keeps ok a s) {c : Nat} {f : Tracking → Tracking}
    (hf : StockBalances s → ∀ i t, s.item c = some i → i.tracking = some t → (f t).balanced) :
    Keeps ok a (s.mapTracking c f) := by
  unfold State.mapTracking
  cases hi : s.item c with
  | none => exact h
  | some i =>
    refine h.setItem fun k j e t ht => ?_
    cases e
    cases hit : i.tracking with
    | none => simp [hit] at ht
    | some u => simp [hit] at ht; exact ht ▸ hf k i u hi hit

end Sys2Proof.Invariants
end

section
/-! PROOFS. The kitchen unit (chapters 4 and 5): what its operations do to the live tickets, and that they keep its capacities. Two relations
say it once for every operation: `TicketsKept`, by which the live tickets stay the same ones, and the lemmas on a ticket that leaves its
place or enters one. -/

namespace Sys2Proof.Machine

-- One theorem after another: as many checks at once take a thread each.
set_option Elab.async false

open Sys2Proof.Statements

/-! ### Live tickets by station (R66) -/

/-- What the switch counts a live ticket by: its number and its tab. -/
def ticketKey (t : Ticket) : Nat × Nat := (t.number, t.tab)

/-- The keys of all live tickets. -/
def State.liveKeys (s : State) : List (Nat × Nat) := s.liveTickets.map ticketKey

/-- The live tickets that stand in a queue other than this station's. -/
def State.otherQueues (s : State) (p : Port) : List Ticket := (allPorts.erase p).flatMap (fun q => (s.station q).queue)

theorem liveTickets_perm (s : State) (p : Port) :
    s.liveTickets.Perm ((s.station p).queue ++ (s.otherQueues p ++ s.overflow)) := by
  have hp : allPorts.Perm (p :: allPorts.erase p) := List.perm_cons_erase (List.mem_finRange p)
  have hq := (hp.flatMap_right (fun q => (s.station q).queue)).append_right s.overflow
  simpa [State.liveTickets, State.otherQueues] using hq

theorem mem_liveTickets_of_queue {s : State} {p : Port} {t : Ticket} (h : t ∈ (s.station p).queue) : t ∈ s.liveTickets :=
  (liveTickets_perm s p).mem_iff.2 (List.mem_append_left _ h)

theorem mem_liveTickets {s : State} {t : Ticket} :
    t ∈ s.liveTickets ↔ (∃ p, t ∈ (s.station p).queue) ∨ t ∈ s.overflow := by
  simp [State.liveTickets, allPorts]

@[simp] theorem otherQueues_setStation (s : State) (p : Port) (x : Station) :
    (s.setStation p x).otherQueues p = s.otherQueues p := by
  unfold State.otherQueues
  refine List.flatMap_congr fun q hq => ?_
  have hne : q ≠ p := ((List.nodup_finRange 24).mem_erase_iff.1 hq).1
  rw [State.station_setStation_other _ hne]

theorem liveTickets_setStation_perm (s : State) (p : Port) (x : Station) :
    (s.setStation p x).liveTickets.Perm (x.queue ++ (s.otherQueues p ++ s.overflow)) := by
  simpa using liveTickets_perm (s.setStation p x) p

/-- A station that takes one more ticket into its queue. -/
theorem liveTickets_enter (s : State) (p : Port) {x : Station} {t : Ticket} (h : x.queue.Perm (t :: (s.station p).queue)) :
    (s.setStation p x).liveTickets.Perm (t :: s.liveTickets) :=
  (liveTickets_setStation_perm s p x).trans ((h.append_right _).trans ((liveTickets_perm s p).symm.cons t))

theorem liveTickets_overflow_append (s : State) (t : Ticket) :
    { s with overflow := s.overflow ++ [t] }.liveTickets.Perm (t :: s.liveTickets) := by
  have : { s with overflow := s.overflow ++ [t] }.liveTickets = s.liveTickets ++ [t] := by
    simp [State.liveTickets, State.station]
  rw [this]
  exact List.perm_append_singleton t _

theorem liveTickets_overflow_erase (s : State) {t : Ticket} (h : t ∈ s.overflow) :
    s.liveTickets.Perm (t :: { s with overflow := s.overflow.erase t }.liveTickets) := by
  refine List.Perm.trans ?_ (List.perm_middle (l₁ := allPorts.flatMap (fun q => (s.station q).queue)))
  exact (List.perm_cons_erase h).append_left _

/-- The ticket enters the queue and nothing else does (R71). -/
theorem enterQueue_perm (queue : List Ticket) (t : Ticket) : (enterQueue queue t).Perm (t :: queue) := by
  unfold enterQueue
  split
  · refine List.perm_middle.trans ?_
    rw [List.take_append_drop]
  · exact List.perm_append_singleton t queue

@[simp] theorem enterQueue_length (queue : List Ticket) (t : Ticket) : (enterQueue queue t).length = queue.length + 1 :=
  (enterQueue_perm queue t).length_eq

@[simp] theorem mem_enterQueue {queue : List Ticket} {t u : Ticket} : u ∈ enterQueue queue t ↔ u = t ∨ u ∈ queue := by
  rw [(enterQueue_perm queue t).mem_iff, List.mem_cons]

/-! ### Capacities (R64, R66, R70, R80) -/

theorem KitchenFits.setStation {s : State} (k : KitchenFits s) {p : Port} {x : Station} (fits : StationFits x)
    (places : ∀ t ∈ x.queue, t.station = p)
    (numbers : ((x.queue ++ (s.otherQueues p ++ s.overflow)).map Ticket.number).Nodup) :
    KitchenFits (s.setStation p x) where
  stations q := by
    by_cases hq : q = p
    · subst hq; rwa [State.station_setStation_self]
    · rw [State.station_setStation_other _ hq]; exact k.stations q
  overflow := k.overflow
  numbers := (((liveTickets_setStation_perm s p x).map Ticket.number).nodup_iff).2 numbers
  places q t ht := by
    by_cases hq : q = p
    · subst hq; rw [State.station_setStation_self] at ht; exact places t ht
    · rw [State.station_setStation_other _ hq] at ht; exact k.places q t ht
  counter := k.counter

theorem KitchenFits.numbers_at {s : State} (k : KitchenFits s) (p : Port) :
    (((s.station p).queue ++ (s.otherQueues p ++ s.overflow)).map Ticket.number).Nodup :=
  (((liveTickets_perm s p).map Ticket.number).nodup_iff).1 k.numbers

theorem KitchenFits.queue_numbers {s : State} (k : KitchenFits s) (p : Port) :
    ((s.station p).queue.map Ticket.number).Nodup := by
  have h := k.numbers_at p
  rw [List.map_append] at h
  exact h.of_append_left

/-- A station whose queue loses tickets, or keeps them. -/
theorem KitchenFits.shrink {s : State} (k : KitchenFits s) {p : Port} {x : Station} (fits : StationFits x)
    (hq : x.queue.Sublist (s.station p).queue) : KitchenFits (s.setStation p x) :=
  k.setStation fits (fun t ht => k.places p t (hq.subset ht))
    ((k.numbers_at p).sublist ((hq.append_right _).map _))

/-- A station whose queue takes one more ticket, with a number of its own. -/
theorem KitchenFits.enter {s : State} (k : KitchenFits s) {p : Port} {x : Station} {t : Ticket} (fits : StationFits x)
    (hq : x.queue.Perm (t :: (s.station p).queue)) (hp : t.station = p)
    (hn : t.number ∉ s.liveTickets.map Ticket.number) : KitchenFits (s.setStation p x) := by
  refine k.setStation fits (fun u hu => ?_) ?_
  · rcases List.mem_cons.1 (hq.mem_iff.1 hu) with rfl | hu
    · exact hp
    · exact k.places p u hu
  · refine (((hq.append_right _).map Ticket.number).nodup_iff).2 ?_
    rw [((liveTickets_perm s p).map Ticket.number).mem_iff] at hn
    exact List.nodup_cons.2 ⟨hn, k.numbers_at p⟩

theorem KitchenFits.overflow_sublist {s : State} (k : KitchenFits s) {l : List Ticket} (h : l.Sublist s.overflow) :
    KitchenFits { s with overflow := l } :=
  ⟨k.stations, h.length_le.trans k.overflow, k.numbers.sublist ((h.append_left _).map _), k.places, k.counter⟩

theorem KitchenFits.overflow_append {s : State} (k : KitchenFits s) {t : Ticket} (h : s.overflow.length < 48)
    (hn : t.number ∉ s.liveTickets.map Ticket.number) : KitchenFits { s with overflow := s.overflow ++ [t] } := by
  refine ⟨k.stations, by simpa using h, ?_, k.places, k.counter⟩
  exact (((liveTickets_overflow_append s t).map Ticket.number).nodup_iff).2 (List.nodup_cons.2 ⟨hn, k.numbers⟩)

theorem KitchenFits.counter_set {s : State} (k : KitchenFits s) {n : Nat} (h : 1 ≤ n ∧ n ≤ 65535) :
    KitchenFits { s with ticketCounter := n } :=
  ⟨k.stations, k.overflow, k.numbers, k.places, h⟩

/-- A live ticket that is taken out of its queue, by its number: the others are those of other numbers. -/
theorem liveTickets_remove {s : State} (k : KitchenFits s) {p : Port} {t : Ticket} (h : t ∈ (s.station p).queue)
    {x : Station} (hx : x.queue = (s.station p).queue.filter (fun u => u.number ≠ t.number)) :
    s.liveTickets.Perm (t :: (s.setStation p x).liveTickets) := by
  have hq : (s.station p).queue.Perm (t :: x.queue) := by
    have hnodup : (s.station p).queue.Nodup := (k.queue_numbers p).of_map _
    refine (List.perm_cons_erase h).trans (List.Perm.cons t ?_)
    rw [hx, hnodup.erase_eq_filter]
    refine List.Perm.of_eq (List.filter_congr fun u hu => ?_)
    by_cases hut : u = t
    · simp [hut]
    · have : u.number ≠ t.number := fun e => hut (List.inj_on_of_nodup_map (k.queue_numbers p) hu h e)
      simp [hut, this]
  exact (liveTickets_perm s p).trans ((hq.append_right _).trans ((liveTickets_setStation_perm s p x).symm.cons t))

/-! ### Operations by which the live tickets stay the same ones -/

/-- `t` is `s` after an operation that changes stations and the overflow list alone, keeps the capacities and the live tickets, and lists
nothing new for recall. -/
structure TicketsKept (s t : State) : Prop where
  fits    : KitchenFits s → KitchenFits t
  keys    : KitchenFits s → t.liveKeys.Perm s.liveKeys
  recalls : ∀ p, ∀ e ∈ (t.station p).recalls, e ∈ (s.station p).recalls
  frame   : t = { s with stations := t.stations, overflow := t.overflow }

theorem TicketsKept.refl (s : State) : TicketsKept s s := ⟨id, fun _ => .rfl, fun _ _ => id, rfl⟩

theorem TicketsKept.trans {s t u : State} (h : TicketsKept s t) (k : TicketsKept t u) : TicketsKept s u where
  fits := k.fits ∘ h.fits
  keys hs := (k.keys (h.fits hs)).trans (h.keys hs)
  recalls p e he := h.recalls p e (k.recalls p e he)
  frame := by rw [k.frame, h.frame]

theorem TicketsKept.foldl {α : Type} {f : State → α → State} (l : List α) {s t : State} (h : TicketsKept s t)
    (hf : ∀ u x, TicketsKept u (f u x)) : TicketsKept s (l.foldl f t) := by
  induction l generalizing t with
  | nil => exact h
  | cons x l ih => exact ih (h.trans (hf t x))

/-- A station is changed, the tickets of its queue in other respects than their numbers, tabs and station. -/
theorem TicketsKept.setStation {s : State} {p : Port} {x : Station} (fits : StationFits (s.station p) → StationFits x)
    (hkeys : KitchenFits s → x.queue.map ticketKey = (s.station p).queue.map ticketKey)
    (hplaces : KitchenFits s → x.queue.map Ticket.station = (s.station p).queue.map Ticket.station)
    (hrecalls : ∀ e ∈ x.recalls, e ∈ (s.station p).recalls) : TicketsKept s (s.setStation p x) where
  fits k := by
    have hnumbers : x.queue.map Ticket.number = (s.station p).queue.map Ticket.number := by
      simpa [ticketKey, Function.comp_def] using congrArg (List.map Prod.fst) (hkeys k)
    refine k.setStation (fits (k.stations p)) (fun t ht => ?_) ?_
    · have : t.station ∈ (s.station p).queue.map Ticket.station := hplaces k ▸ List.mem_map_of_mem ht
      obtain ⟨u, hu, e⟩ := List.mem_map.1 this
      exact e ▸ k.places p u hu
    · simpa [hnumbers] using k.numbers_at p
  keys k := by
    have h1 := (liveTickets_setStation_perm s p x).map ticketKey
    have h2 := (liveTickets_perm s p).map ticketKey
    rw [List.map_append, hkeys k, ← List.map_append] at h1
    exact h1.trans h2.symm
  recalls q e he := by
    by_cases hq : q = p
    · subst hq; rw [State.station_setStation_self] at he; exact hrecalls e he
    · rwa [State.station_setStation_other _ hq] at he
  frame := rfl

/-- A station whose queue and recall list stay. -/
theorem TicketsKept.setStation_same {s : State} {p : Port} {x : Station} (hq : x.queue = (s.station p).queue)
    (hr : x.recalls = (s.station p).recalls) (hs : (s.station p).sent.length ≤ (s.station p).window →
      1 ≤ (s.station p).window ∧ (s.station p).window ≤ 4 → x.sent.length ≤ x.window ∧ 1 ≤ x.window ∧ x.window ≤ 4) :
    TicketsKept s (s.setStation p x) :=
  .setStation (fun k => ⟨hq ▸ k.queue, (hs k.sent k.window).1, (hs k.sent k.window).2, hr ▸ k.recalls⟩)
    (fun _ => by rw [hq]) (fun _ => by rw [hq]) (fun _ he => hr ▸ he)

theorem leaveSent_eq (s : State) (p : Port) (n : Nat) : s.leaveSent p n = s.setStation p (leftSent s (s.station p) n) := by
  unfold State.leaveSent leftSent
  split <;> rename_i h <;> simp [h, State.restartAck, State.ackDeadline]

theorem TicketsKept.leaveSent (s : State) (p : Port) (n : Nat) : TicketsKept s (s.leaveSent p n) := by
  rw [leaveSent_eq]
  exact .setStation_same rfl rfl fun h w => ⟨(List.length_erase_le).trans h, w⟩

theorem TicketsKept.restartAck (s : State) (p : Port) : TicketsKept s (s.restartAck p) :=
  .setStation_same rfl rfl fun h w => ⟨h, w⟩

/-- A change of the tickets of a number that leaves each one's number, tab and station. -/
theorem TicketsKept.mapTicket (s : State) (p : Port) (n : Nat) {f : Ticket → Ticket}
    (hf : KitchenFits s → ∀ t ∈ (s.station p).queue, t.number = n →
      ticketKey (f t) = ticketKey t ∧ (f t).station = t.station) : TicketsKept s (s.mapTicket p n f) := by
  refine .setStation (fun k => ⟨by simpa using k.queue, k.sent, k.window, k.recalls⟩)
    (fun k => ?_) (fun k => ?_) (fun _ h => h)
  all_goals
    simp only [List.map_map]
    refine List.map_congr_left fun t ht => ?_
    by_cases hn : t.number = n
    · simp [hn, (hf k t ht hn)]
    · simp [hn]

theorem TicketsKept.unsendNewest (s : State) (p : Port) : TicketsKept s (s.unsendNewest p) := by
  unfold State.unsendNewest
  cases (s.station p).sent.getLast? with
  | none => exact .refl s
  | some n =>
    have h1 : TicketsKept s (s.mapTicket p n fun t => { t with state := .queued }) := .mapTicket s p n fun _ _ _ _ => ⟨rfl, rfl⟩
    exact h1.trans (.leaveSent _ p n)

theorem TicketsKept.fitWindow (s : State) (p : Port) : TicketsKept s (s.fitWindow p) :=
  (TicketsKept.refl s).foldl _ fun u _ => .unsendNewest u p

theorem TicketsKept.showTicket (s : State) (p : Port) (n : Nat) : TicketsKept s (s.showTicket p n) := by
  have h1 : TicketsKept s (s.mapTicket p n fun t => { t with state := .shown }) := .mapTicket s p n fun _ _ _ _ => ⟨rfl, rfl⟩
  refine (h1.trans ?_).trans (.restartAck _ p)
  exact .setStation_same rfl rfl fun h w => ⟨(List.length_erase_le).trans h, w⟩

/-! ### Re-targeting and promotion (R72, R91) -/

theorem retargeted_key (s : State) (t : Ticket) : ticketKey (s.retargeted t) = ticketKey t := by
  unfold State.retargeted
  split
  · rfl
  · split <;> rfl

theorem TicketsKept.retarget (s : State) : TicketsKept s s.retarget where
  fits k := by
    refine ⟨k.stations, by simpa [State.retarget] using k.overflow, ?_, k.places, k.counter⟩
    have : s.retarget.liveTickets.map Ticket.number = s.liveTickets.map Ticket.number := by
      have hn : ∀ t, (s.retargeted t).number = t.number := fun t => congrArg Prod.fst (retargeted_key s t)
      simp [State.liveTickets, State.retarget, State.station, Function.comp_def, hn]
    rw [this]
    exact k.numbers
  keys _ := by
    refine .of_eq ?_
    simp [State.liveKeys, State.liveTickets, State.retarget, State.station, Function.comp_def, retargeted_key]
  recalls _ _ h := h
  frame := rfl

theorem promotionChoice_some {overflow : List Ticket} {p : Port} {t : Ticket} (h : promotionChoice overflow p = some t) :
    t ∈ overflow ∧ t.station = p := by
  unfold promotionChoice at h
  cases hr : overflow.find? (fun t => decide (t.station = p) && t.rush) with
  | some u =>
    simp only [hr, Option.some_or, Option.some.injEq] at h
    subst h
    have := List.find?_some hr
    simp at this
    exact ⟨List.mem_of_find?_eq_some hr, this.1⟩
  | none =>
    simp only [hr, Option.none_or] at h
    have := List.find?_some h
    exact ⟨List.mem_of_find?_eq_some h, by simpa using this⟩

/-- Everything a promotion can do (R72). -/
theorem promoteOne_cases (s : State) (p : Port) :
    s.promoteOne p = s ∨ ∃ t, (s.station p).queue.length < 24 ∧ promotionChoice s.overflow p = some t ∧
      s.promoteOne p = { s with overflow := s.overflow.erase t }.joinQueue p t := by
  unfold State.promoteOne
  split
  · rename_i hlen
    cases h : promotionChoice s.overflow p with
    | none => exact .inl rfl
    | some t => exact .inr ⟨t, hlen, rfl, rfl⟩
  · exact .inl rfl

theorem KitchenFits.joinQueue {s : State} (k : KitchenFits s) {t : Ticket} {p : Port} (hlen : (s.station p).queue.length < 24)
    (hp : t.station = p) (hn : t.number ∉ s.liveTickets.map Ticket.number) : KitchenFits (s.joinQueue p t) :=
  k.enter (t := t)
    ⟨by simpa using hlen, (k.stations p).sent, (k.stations p).window, (k.stations p).recalls⟩ (enterQueue_perm _ t) hp hn

theorem TicketsKept.promoteOne (s : State) (p : Port) : TicketsKept s (s.promoteOne p) := by
  rcases promoteOne_cases s p with h | ⟨t, hlen, hchoice, h⟩ <;> rw [h]
  · exact .refl s
  obtain ⟨hmem, hstation⟩ := promotionChoice_some hchoice
  have hout := liveTickets_overflow_erase s hmem
  have hin := liveTickets_enter { s with overflow := s.overflow.erase t } p
    (x := { s.station p with queue := enterQueue (s.station p).queue t }) (enterQueue_perm _ t)
  refine ⟨fun k => ?_, fun _ => (hin.trans hout.symm).map ticketKey, fun q e he => ?_, rfl⟩
  · refine (k.overflow_sublist List.erase_sublist).joinQueue hlen hstation ?_
    exact (List.nodup_cons.1 (((hout.map Ticket.number).nodup_iff).1 k.numbers)).1
  · by_cases hq : q = p
    · subst hq
      rw [State.joinQueue, State.station_setStation_self] at he
      exact he
    · rwa [State.joinQueue, State.station_setStation_other _ hq] at he

theorem TicketsKept.promote (s : State) : TicketsKept s s.promote :=
  (TicketsKept.retarget s).foldl _ fun u p => (TicketsKept.refl u).foldl _ fun v _ => .promoteOne v p

/-! ### HELLO and going dark (R87, R89, R90) -/

theorem TicketsKept.hello (s : State) (p : Port) : TicketsKept s (s.setStation p (s.station p).hello) :=
  .setStation (fun k => ⟨by simpa [Station.hello] using k.queue, Nat.zero_le _, k.window, k.recalls⟩)
    (fun _ => by simp [Station.hello, ticketKey, Function.comp_def]) (fun _ => by simp [Station.hello, Function.comp_def]) (fun _ h => h)

theorem goDark_eq (x : Station) : x.goDark = darkened x := rfl

theorem TicketsKept.goDark (s : State) (p : Port) : TicketsKept s (s.setStation p (s.station p).goDark) := by
  have hmap : ∀ {α : Type} (g : Ticket → α), (∀ t : Ticket, g { t with state := .queued } = g t) →
      (s.station p).goDark.queue.map g = (s.station p).queue.map g := fun g hg => by
    simp only [Station.goDark, List.map_map]
    refine List.map_congr_left fun t _ => ?_
    by_cases h : t.number ∈ (s.station p).sent <;> simp [h, hg]
  exact .setStation (fun k => ⟨by simpa [Station.goDark] using k.queue, Nat.zero_le _, k.window, k.recalls⟩)
    (fun _ => hmap _ fun _ => rfl) (fun _ => hmap _ fun _ => rfl) (fun _ h => h)

theorem alternateOf_some {s : State} {p a : Port} :
    s.alternateOf p = some a ↔ (s.station p).alternate = some a ∧ a ≠ p ∧ s.role a = .station := by
  unfold State.alternateOf
  cases h : (s.station p).alternate with
  | none => simp
  | some b =>
    simp only [State.isStation, decide_eq_true_eq, Option.ite_none_right_eq_some, Option.some.injEq]
    exact ⟨fun ⟨⟨h1, h2⟩, e⟩ => e ▸ ⟨rfl, h1, h2⟩, fun ⟨e, h1, h2⟩ => e ▸ ⟨⟨e.symm ▸ h1, e.symm ▸ h2⟩, rfl⟩⟩

theorem readyAlternate_some {s : State} {p a : Port} : s.readyAlternate p = some a ↔
    (s.station p).alternate = some a ∧ a ≠ p ∧ s.role a = .station ∧ (s.station a).ready = true := by
  unfold State.readyAlternate
  cases h : s.alternateOf p with
  | none =>
    refine ⟨nofun, fun e => ?_⟩
    have := alternateOf_some.2 ⟨e.1, e.2.1, e.2.2.1⟩
    simp [h] at this
  | some b =>
    have hb := alternateOf_some.1 h
    by_cases hr : (s.station b).ready = true
    · simp only [hr, if_true, Option.some.injEq]
      constructor
      · rintro rfl; exact ⟨hb.1, hb.2.1, hb.2.2, hr⟩
      · rintro ⟨e, -⟩; exact Option.some.inj (hb.1.symm.trans e)
    · simp only [hr]
      refine ⟨nofun, fun e => ?_⟩
      have : b = a := Option.some.inj (hb.1.symm.trans e.1)
      subst this
      exact absurd e.2.2.2 hr

/-- A ticket is taken from a station's queue by its number. -/
def withoutTicket (s : State) (p : Port) (t : Ticket) : State :=
  s.setStation p { s.station p with queue := (s.station p).queue.filter (fun v => v.number ≠ t.number) }

/-- Everything a move to the alternate can do (R90). -/
theorem moveTicket_cases (p a : Port) (acc : State × Nat) (t : Ticket) :
    ((acc.1.station a).queue.length < 24 ∧
      State.moveTicket p a acc t = ((withoutTicket acc.1 p t).joinQueue a (arrivesAt a t), acc.2 + 1)) ∨
    (24 ≤ (acc.1.station a).queue.length ∧ acc.1.overflow.length < 48 ∧ State.moveTicket p a acc t =
      ({ withoutTicket acc.1 p t with overflow := acc.1.overflow ++ [arrivesAt a t] }, acc.2 + 1)) ∨
    (24 ≤ (acc.1.station a).queue.length ∧ 48 ≤ acc.1.overflow.length ∧ State.moveTicket p a acc t = acc) := by
  unfold State.moveTicket
  by_cases h1 : (acc.1.station a).queue.length < 24
  · exact .inl ⟨h1, by simp only [h1, if_true]; rfl⟩
  · by_cases h2 : acc.1.overflow.length < 48
    · exact .inr (.inl ⟨by omega, h2, by simp only [h1, h2, if_true, if_false]; rfl⟩)
    · exact .inr (.inr ⟨by omega, by omega, by simp [h1, h2]⟩)

theorem withoutTicket_fits {s : State} (k : KitchenFits s) (p : Port) (t : Ticket) : KitchenFits (withoutTicket s p t) :=
  k.shrink ⟨(List.length_filter_le _ _).trans (k.stations p).queue, (k.stations p).sent, (k.stations p).window,
    (k.stations p).recalls⟩ List.filter_sublist

/-- One ticket's move keeps the live tickets; the others of the queue stay there to be moved. -/
theorem moveTicket_kept {p a : Port} (hap : a ≠ p) (acc : State × Nat) (t : Ticket) :
    (KitchenFits acc.1 → t ∈ (acc.1.station p).queue →
      KitchenFits (State.moveTicket p a acc t).1 ∧ (State.moveTicket p a acc t).1.liveKeys.Perm acc.1.liveKeys ∧
      ∀ u ∈ (acc.1.station p).queue, u.number ≠ t.number → u ∈ ((State.moveTicket p a acc t).1.station p).queue) ∧
    (∀ q, ((State.moveTicket p a acc t).1.station q).recalls = (acc.1.station q).recalls) ∧
    (State.moveTicket p a acc t).1 =
      { acc.1 with
        stations := (State.moveTicket p a acc t).1.stations, overflow := (State.moveTicket p a acc t).1.overflow } := by
  have hother : ∀ q, ((withoutTicket acc.1 p t).station q).recalls = (acc.1.station q).recalls := fun q => by
    by_cases hq : q = p
    · subst hq; simp [withoutTicket]
    · rw [withoutTicket, State.station_setStation_other _ hq]
  have hstay : ∀ u ∈ (acc.1.station p).queue, u.number ≠ t.number → u ∈ ((withoutTicket acc.1 p t).station p).queue :=
    fun u hu hn => by simpa [withoutTicket] using ⟨hu, hn⟩
  have ha : (withoutTicket acc.1 p t).station a = acc.1.station a := State.station_setStation_other _ hap _
  rcases moveTicket_cases p a acc t with ⟨hlen, h⟩ | ⟨-, hlen, h⟩ | ⟨-, -, h⟩ <;> rw [h]
  · refine ⟨fun k ht => ?_, fun q => ?_, rfl⟩
    · have hout := liveTickets_remove k ht (x := { acc.1.station p with
        queue := (acc.1.station p).queue.filter (fun v => v.number ≠ t.number) }) rfl
      have hin := liveTickets_enter (withoutTicket acc.1 p t) a
        (x := { (withoutTicket acc.1 p t).station a with
          queue := enterQueue ((withoutTicket acc.1 p t).station a).queue (arrivesAt a t) }) (enterQueue_perm _ (arrivesAt a t))
      refine ⟨(withoutTicket_fits k p t).joinQueue (by rwa [ha]) rfl ?_, ?_, fun u hu hn => ?_⟩
      · exact (List.nodup_cons.1 (((hout.map Ticket.number).nodup_iff).1 k.numbers)).1
      · exact (hin.map ticketKey).trans (hout.map ticketKey).symm
      · rw [State.joinQueue, State.station_setStation_other _ hap.symm]; exact hstay u hu hn
    · by_cases hq : q = a
      · subst hq; simpa [State.joinQueue] using hother q
      · rw [State.joinQueue, State.station_setStation_other _ hq]; exact hother q
  · refine ⟨fun k ht => ?_, hother, rfl⟩
    have hout := liveTickets_remove k ht (x := { acc.1.station p with
      queue := (acc.1.station p).queue.filter (fun v => v.number ≠ t.number) }) rfl
    have hin := liveTickets_overflow_append (withoutTicket acc.1 p t) (arrivesAt a t)
    refine ⟨(withoutTicket_fits k p t).overflow_append hlen ?_, ?_, hstay⟩
    · exact (List.nodup_cons.1 (((hout.map Ticket.number).nodup_iff).1 k.numbers)).1
    · exact (hin.map ticketKey).trans (hout.map ticketKey).symm
  · exact ⟨fun k _ => ⟨k, .rfl, fun _ hu _ => hu⟩, fun _ => rfl, rfl⟩

theorem moveTickets_kept {p a : Port} (hap : a ≠ p) (l : List Ticket) (acc : State × Nat) :
    (KitchenFits acc.1 → l.Sublist (acc.1.station p).queue →
      KitchenFits (l.foldl (State.moveTicket p a) acc).1 ∧
      (l.foldl (State.moveTicket p a) acc).1.liveKeys.Perm acc.1.liveKeys) ∧
    (∀ q, ((l.foldl (State.moveTicket p a) acc).1.station q).recalls = (acc.1.station q).recalls) ∧
    (l.foldl (State.moveTicket p a) acc).1 =
      { acc.1 with
        stations := (l.foldl (State.moveTicket p a) acc).1.stations,
        overflow := (l.foldl (State.moveTicket p a) acc).1.overflow } := by
  suffices h : (KitchenFits acc.1 → (∀ u ∈ l, u ∈ (acc.1.station p).queue) → (l.map Ticket.number).Nodup →
      KitchenFits (l.foldl (State.moveTicket p a) acc).1 ∧
      (l.foldl (State.moveTicket p a) acc).1.liveKeys.Perm acc.1.liveKeys) ∧
    (∀ q, ((l.foldl (State.moveTicket p a) acc).1.station q).recalls = (acc.1.station q).recalls) ∧
    (l.foldl (State.moveTicket p a) acc).1 =
      { acc.1 with
        stations := (l.foldl (State.moveTicket p a) acc).1.stations,
        overflow := (l.foldl (State.moveTicket p a) acc).1.overflow } from
    ⟨fun k hl => h.1 k hl.subset ((k.queue_numbers p).sublist (hl.map _)), h.2⟩
  induction l generalizing acc with
  | nil => exact ⟨fun k _ _ => ⟨k, .rfl⟩, fun _ => rfl, rfl⟩
  | cons t l ih =>
    obtain ⟨hone, hrecalls, hframe⟩ := moveTicket_kept hap acc t
    obtain ⟨hrest, hrecalls', hframe'⟩ := ih (State.moveTicket p a acc t)
    refine ⟨fun k hmem hnodup => ?_, fun q => (hrecalls' q).trans (hrecalls q), ?_⟩
    · obtain ⟨k1, keys1, stay⟩ := hone k (hmem t List.mem_cons_self)
      obtain ⟨hnew, hnodup⟩ := List.nodup_cons.1 hnodup
      have hl : ∀ u ∈ l, u ∈ ((State.moveTicket p a acc t).1.station p).queue := fun u hu =>
        stay u (hmem u (List.mem_cons_of_mem _ hu)) fun e => hnew (e ▸ List.mem_map_of_mem hu)
      obtain ⟨k2, keys2⟩ := hrest k1 hl hnodup
      exact ⟨k2, keys2.trans keys1⟩
    · rw [List.foldl_cons, hframe', hframe]

theorem TicketsKept.moveToAlternate (s : State) (p : Port) : TicketsKept s (s.moveToAlternate p).1 := by
  unfold State.moveToAlternate
  cases h : s.readyAlternate p with
  | none => exact .refl s
  | some a =>
    obtain ⟨hkept, hrecalls, hframe⟩ := moveTickets_kept (readyAlternate_some.1 h).2.1
      ((s.station p).queue.filter (fun t => !t.started)) (s, 0)
    exact ⟨fun k => (hkept k List.filter_sublist).1, fun k => (hkept k List.filter_sublist).2,
      fun q e he => (hrecalls q) ▸ he, hframe⟩

theorem darkHandling_eq (s : State) (p : Port) : s.darkHandling p =
    (((s.setStation p (s.station p).goDark).moveToAlternate p).1.promote,
      ((s.setStation p (s.station p).goDark).moveToAlternate p).2) := rfl

theorem darkHandling_fst (s : State) (p : Port) :
    (s.darkHandling p).1 = ((s.setStation p (s.station p).goDark).moveToAlternate p).1.promote := by
  simp only [darkHandling_eq]

theorem TicketsKept.darkHandling (s : State) (p : Port) : TicketsKept s (s.darkHandling p).1 := by
  have h1 := TicketsKept.goDark s p
  have h2 := TicketsKept.moveToAlternate (s.setStation p (s.station p).goDark) p
  have h3 := TicketsKept.promote ((s.setStation p (s.station p).goDark).moveToAlternate p).1
  rw [darkHandling_fst]
  exact (h1.trans h2).trans h3

/-! ### LOAD STATIONS (R74, R166) -/

/-- One SENT ticket fewer, if there is any. -/
theorem unsendNewest_sent (s : State) (p : Port) :
    ((s.unsendNewest p).station p).sent.length = (s.station p).sent.length - 1 := by
  unfold State.unsendNewest
  cases h : (s.station p).sent.getLast? with
  | none => simp [List.getLast?_eq_none_iff.1 h]
  | some n =>
    have hmem : n ∈ (s.station p).sent := List.mem_of_getLast? h
    simp [leaveSent_eq, leftSent, State.mapTicket, List.length_erase_of_mem hmem]

theorem unsendNewest_window (s : State) (p : Port) :
    ((s.unsendNewest p).station p).window = (s.station p).window := by
  unfold State.unsendNewest
  cases h : (s.station p).sent.getLast? with
  | none => rfl
  | some n => simp [leaveSent_eq, leftSent, State.mapTicket]

theorem unsend_times (s : State) (p : Port) (l : List Nat) :
    ((l.foldl (fun acc _ => acc.unsendNewest p) s).station p).sent.length = (s.station p).sent.length - l.length ∧
    ((l.foldl (fun acc _ => acc.unsendNewest p) s).station p).window = (s.station p).window := by
  induction l generalizing s with
  | nil => exact ⟨rfl, rfl⟩
  | cons _ l ih =>
    obtain ⟨h1, h2⟩ := ih (s.unsendNewest p)
    rw [unsendNewest_sent] at h1
    rw [unsendNewest_window] at h2
    refine ⟨?_, h2⟩
    rw [List.foldl_cons, h1, List.length_cons]
    omega

/-- After R74 the SENT count is no more than the window. -/
theorem fitWindow_sent (s : State) (p : Port) :
    ((s.fitWindow p).station p).sent.length = min (s.station p).sent.length (s.station p).window ∧
    ((s.fitWindow p).station p).window = (s.station p).window := by
  have h := unsend_times s p (List.range ((s.station p).sent.length - (s.station p).window))
  refine ⟨h.1.trans ?_, h.2⟩
  rw [List.length_range]
  omega

end Sys2Proof.Machine
end

section
/-! PROOFS. The kitchen unit, continued: numbers for new tickets (R67), tickets that an order creates (R68), a ticket that leaves its place
(R79, R84) or comes back to it (R81), and a line struck from a ticket (R83). -/

namespace Sys2Proof.Machine

-- One theorem after another: as many checks at once take a thread each.
set_option Elab.async false

open Sys2Proof.Statements

/-! ### Ticket numbers (R67) -/

theorem nextNumber_range (n : Nat) : 1 ≤ nextNumber n ∧ nextNumber n ≤ 65535 := by
  unfold nextNumber; split <;> omega

/-- The number that comes `j` places after another, from 65,535 back to 1. -/
theorem nextNumber_iterate {n : Nat} (h1 : 1 ≤ n) (h2 : n ≤ 65535) (j : Nat) :
    nextNumber^[j] n = (n - 1 + j) % 65535 + 1 := by
  induction j with
  | zero => simp; omega
  | succ j ih => rw [Function.iterate_succ_apply', ih, nextNumber]; split <;> omega

/-- Everything the search for a number can find: the first that is not taken, or the number where it stopped looking. -/
theorem firstFree_spec (taken : List Nat) (fuel n : Nat) : ∃ k, k ≤ fuel ∧ firstFree taken fuel n = nextNumber^[k] n ∧
    (∀ j, j < k → nextNumber^[j] n ∈ taken) ∧ (k < fuel → nextNumber^[k] n ∉ taken) := by
  induction fuel generalizing n with
  | zero => exact ⟨0, le_rfl, rfl, nofun, nofun⟩
  | succ fuel ih =>
    by_cases hn : n ∈ taken
    · obtain ⟨k, hk, he, hbefore, hfree⟩ := ih (nextNumber n)
      refine ⟨k + 1, by omega, by simpa [firstFree, hn] using he, fun j hj => ?_, fun hlt => ?_⟩
      · cases j with
        | zero => exact hn
        | succ j => exact hbefore j (by omega)
      · exact hfree (by omega)
    · exact ⟨0, by omega, by simp [firstFree, hn], nofun, fun _ => hn⟩

/-- Of one number more than are taken, one is free. -/
theorem firstFree_not_mem {taken : List Nat} {n : Nat} (h1 : 1 ≤ n) (h2 : n ≤ 65535) (hlen : taken.length < 65535) :
    firstFree taken taken.length n ∉ taken := by
  obtain ⟨k, hk, he, hbefore, hfree⟩ := firstFree_spec taken taken.length n
  rw [he]
  intro hmem
  have hk : k = taken.length := le_antisymm hk (not_lt.1 fun hlt => hfree hlt hmem)
  have hsub : (Finset.range (taken.length + 1)).image (fun j => nextNumber^[j] n) ⊆ taken.toFinset := by
    intro m hm
    obtain ⟨j, hj, rfl⟩ := Finset.mem_image.1 hm
    rw [List.mem_toFinset]
    rcases Nat.lt_succ_iff_lt_or_eq.1 (Finset.mem_range.1 hj) with hj | rfl
    · exact hbefore j (hk ▸ hj)
    · exact hk ▸ hmem
  have hinj : Set.InjOn (fun j => nextNumber^[j] n) (Finset.range (taken.length + 1)) := by
    intro i hi j hj hij
    simp only [Finset.coe_range, Set.mem_Iio] at hi hj
    simp only [nextNumber_iterate h1 h2] at hij
    omega
  have hcard := Finset.card_le_card hsub
  rw [Finset.card_image_of_injOn hinj, Finset.card_range] at hcard
  have := taken.toFinset_card_le
  omega

theorem isLiveNumber_iff (s : State) (n : Nat) : s.isLiveNumber n = true ↔ n ∈ s.liveTickets.map Ticket.number := by
  simp [State.isLiveNumber]

/-- The number R67 gives is a ticket number that no live ticket has. -/
theorem freshNumber_spec {s : State} (h1 : 1 ≤ s.ticketCounter) (h2 : s.ticketCounter ≤ 65535)
    (hlen : s.liveTickets.length < 65535) :
    (1 ≤ s.freshNumber ∧ s.freshNumber ≤ 65535) ∧ s.freshNumber ∉ s.liveTickets.map Ticket.number := by
  have hfresh := firstFree_not_mem (taken := s.liveTickets.map Ticket.number) h1 h2 (by simpa using hlen)
  rw [List.length_map] at hfresh
  obtain ⟨k, -, he, -⟩ := firstFree_spec (s.liveTickets.map Ticket.number) s.liveTickets.length s.ticketCounter
  refine ⟨?_, hfresh⟩
  rw [State.freshNumber, he, nextNumber_iterate h1 h2]
  omega

/-- 24 queues of at most 24 tickets and an overflow list of 48. -/
theorem liveTickets_length_le {s : State} (k : KitchenFits s) : s.liveTickets.length ≤ 624 := by
  have hq : (allPorts.flatMap (fun p => (s.station p).queue)).length ≤ 24 * 24 := by
    rw [List.length_flatMap]
    refine (List.sum_le_card_nsmul _ 24 fun n hn => ?_).trans (by simp [allPorts])
    obtain ⟨p, -, rfl⟩ := List.mem_map.1 hn
    exact (k.stations p).queue
  rw [State.liveTickets, List.length_append]
  have := k.overflow
  omega

theorem KitchenFits.freshNumber {s : State} (k : KitchenFits s) :
    (1 ≤ s.freshNumber ∧ s.freshNumber ≤ 65535) ∧ s.freshNumber ∉ s.liveTickets.map Ticket.number :=
  freshNumber_spec k.counter.1 k.counter.2 ((liveTickets_length_le k).trans_lt (by decide))

/-! ### Tickets that an order creates (R55, R68) -/

/-- The tickets already placed stand where they were judged to go: queues and overflow list have grown by them. -/
structure PlacesTaken (judged s : State) (done : List Place) : Prop where
  queues   : ∀ p, (s.station p).queue.length = judged.queueLength done p
  overflow : s.overflow.length = judged.overflow.length + (done.filter (fun d => !d.inQueue)).length

theorem PlacesTaken.none (s : State) : PlacesTaken s s [] := ⟨fun _ => rfl, rfl⟩

/-- The place found has room (R70). -/
theorem findPlace_fits {judged s : State} {done : List Place} (h : PlacesTaken judged s done) {p : Port} {x : Place}
    (hx : judged.findPlace done p = some x) :
    (x.inQueue = true → (s.station x.target).queue.length < 24) ∧ (x.inQueue = false → s.overflow.length < 48) := by
  unfold State.findPlace at hx
  simp only at hx
  split at hx
  · cases hx; exact ⟨fun _ => by rw [h.queues]; assumption, nofun⟩
  · split at hx
    · cases hx; exact ⟨nofun, fun _ => by rw [h.overflow]; assumption⟩
    · cases hx

theorem PlacesTaken.placeTicket {judged s : State} {done : List Place} (h : PlacesTaken judged s done) (x : Place) (t : Ticket)
    (n : Nat) : PlacesTaken judged { s.placeTicket x t with ticketCounter := n } (done ++ [x]) := by
  unfold State.placeTicket
  cases hq : x.inQueue with
  | true =>
    refine ⟨fun p => ?_, by simpa [hq, State.joinQueue] using h.overflow⟩
    by_cases hp : p = x.target
    · subst hp
      have e := h.queues x.target
      simp only [State.queueLength, if_true] at e ⊢
      change ((s.joinQueue x.target t).station x.target).queue.length = _
      simp [State.joinQueue, hq, e]
      omega
    · have e := h.queues p
      simp only [State.queueLength, if_true] at e ⊢
      change ((s.joinQueue x.target t).station p).queue.length = _
      rw [State.joinQueue, State.station_setStation_other _ hp]
      simp [Ne.symm hp, e]
  | false =>
    refine ⟨fun p => ?_, ?_⟩
    · have e := h.queues p
      simp only [State.queueLength] at e ⊢
      simpa [hq, State.station] using e
    · have e := h.overflow
      simp [hq, e]
      omega

theorem placeTicket_kept {s : State} (k : KitchenFits s) {x : Place} {t : Ticket} (ht : t.station = x.target)
    (hroom : (x.inQueue = true → (s.station x.target).queue.length < 24) ∧ (x.inQueue = false → s.overflow.length < 48))
    (hn : t.number ∉ s.liveTickets.map Ticket.number) :
    KitchenFits (s.placeTicket x t) ∧ (s.placeTicket x t).liveKeys.Perm (ticketKey t :: s.liveKeys) := by
  unfold State.placeTicket
  cases hq : x.inQueue with
  | true => exact ⟨k.joinQueue (hroom.1 hq) ht hn, (liveTickets_enter s x.target (enterQueue_perm _ t)).map ticketKey⟩
  | false => exact ⟨k.overflow_append (hroom.2 hq) hn, (liveTickets_overflow_append s t).map ticketKey⟩

theorem placeTicket_recalls (s : State) (x : Place) (t : Ticket) (q : Port) :
    ((s.placeTicket x t).station q).recalls = (s.station q).recalls := by
  unfold State.placeTicket
  split
  · by_cases hq : q = x.target
    · subst hq; rw [State.joinQueue, State.station_setStation_self]
    · rw [State.joinQueue, State.station_setStation_other _ hq]
  · rfl

theorem placeTicket_frame (s : State) (x : Place) (t : Ticket) : s.placeTicket x t =
    { s with stations := (s.placeTicket x t).stations, overflow := (s.placeTicket x t).overflow } := by
  unfold State.placeTicket; split <;> rfl

/-- What the creation of tickets leaves alone. -/
theorem createTickets_frame (tab : Nat) (origin : Port) (rush : Bool) (number : Nat → Nat) (l : List JudgedTicket) (s : State) :
    (∀ q, ((createTickets tab origin rush number l s).1.station q).recalls = (s.station q).recalls) ∧
    ∃ stations overflow counter, (createTickets tab origin rush number l s).1 =
      { s with stations := stations, overflow := overflow, ticketCounter := counter } := by
  induction l generalizing s with
  | nil => exact ⟨fun _ => rfl, _, _, _, rfl⟩
  | cons x l ih =>
    unfold createTickets
    cases hp : x.place with
    | none => exact ih s
    | some place =>
      obtain ⟨hr, stations, overflow, counter, hf⟩ := ih
        { s.placeTicket place (newTicket tab origin rush number s.freshNumber (place, x.lines)) with
          ticketCounter := nextNumber s.freshNumber }
      refine ⟨fun q => (hr q).trans (placeTicket_recalls s place _ q), stations, overflow, counter, hf.trans ?_⟩
      rw [placeTicket_frame]

/-- The tickets of an order, created at the places found for them, keep the capacities, and the new live tickets are theirs. -/
theorem createTickets_kept (judged : State) (tab : Nat) (origin : Port) (rush : Bool) (number : Nat → Nat)
    (formed : List (Port × List PassedLine)) {done : List Place} {s : State} (h : PlacesTaken judged s done) (k : KitchenFits s) :
    let r := createTickets tab origin rush number (judged.judgeTickets done formed) s
    KitchenFits r.1 ∧ r.1.liveKeys.Perm (r.2.map (fun c => (c.1, tab)) ++ s.liveKeys) := by
  induction formed generalizing done s with
  | nil => exact ⟨k, .rfl⟩
  | cons x formed ih =>
    obtain ⟨p, lines⟩ := x
    simp only [State.judgeTickets]
    unfold createTickets
    cases hp : judged.findPlace done p with
    | none => simpa [hp] using ih h k
    | some place =>
      obtain ⟨hcounter, hfresh⟩ := k.freshNumber
      obtain ⟨k1, keys1⟩ := placeTicket_kept k (x := place)
        (t := newTicket tab origin rush number s.freshNumber (place, lines)) rfl (findPlace_fits h hp) hfresh
      obtain ⟨k2, keys2⟩ := ih (h.placeTicket place (newTicket tab origin rush number s.freshNumber (place, lines))
        (nextNumber s.freshNumber)) (k1.counter_set (nextNumber_range _))
      refine ⟨k2, keys2.trans ?_⟩
      exact (keys1.append_left _).trans List.perm_middle

/-! ### A ticket that leaves its place (R75, R79, R84, R85) -/

theorem leftSent_of_not_mem (s : State) {x : Station} {n : Nat} (h : n ∉ x.sent) : leftSent s x n = x := by
  have hhead : x.sent.head? ≠ some n := fun e => h (List.mem_of_mem_head? e)
  simp [leftSent, List.erase_of_not_mem h, hhead]

theorem removeFromQueue_eq (s : State) (p : Port) (n : Nat) : s.removeFromQueue p n = s.setStation p
    { leftSent s (s.station p) n with queue := (s.station p).queue.filter (fun t => t.number ≠ n) } := by
  unfold State.removeFromQueue
  by_cases h : n ∈ (s.station p).sent
  · simp only [h, if_true, leaveSent_eq, State.station_setStation_self, State.setStation_setStation]
    rfl
  · simp only [h, if_false, leftSent_of_not_mem s h]

theorem leftSent_fits {s : State} {x : Station} (k : StationFits x) (n : Nat) {queue : List Ticket}
    (hq : queue.length ≤ x.queue.length) : StationFits { leftSent s x n with queue := queue } :=
  ⟨hq.trans k.queue, List.length_erase_le.trans k.sent, k.window, k.recalls⟩

theorem removeFromQueue_kept {s : State} (k : KitchenFits s) {p : Port} {t : Ticket} (h : t ∈ (s.station p).queue) :
    KitchenFits (s.removeFromQueue p t.number) ∧ s.liveKeys.Perm (ticketKey t :: (s.removeFromQueue p t.number).liveKeys) := by
  rw [removeFromQueue_eq]
  exact ⟨k.shrink (leftSent_fits (k.stations p) _ (List.length_filter_le _ _)) List.filter_sublist,
    (liveTickets_remove k h rfl).map ticketKey⟩

theorem KitchenFits.removeFromQueue {s : State} (k : KitchenFits s) (p : Port) (n : Nat) :
    KitchenFits (s.removeFromQueue p n) := by
  rw [removeFromQueue_eq]
  exact k.shrink (leftSent_fits (k.stations p) _ (List.length_filter_le _ _)) List.filter_sublist

theorem removeFromQueue_recalls (s : State) (p : Port) (n : Nat) (q : Port) :
    ((s.removeFromQueue p n).station q).recalls = (s.station q).recalls := by
  rw [removeFromQueue_eq]
  by_cases hq : q = p
  · subst hq; rw [State.station_setStation_self]; rfl
  · rw [State.station_setStation_other _ hq]

theorem inOverflow_iff {s : State} {n : Nat} : s.inOverflow n = true ↔ ∃ y ∈ s.overflow, y.number = n := by
  simp [State.inOverflow]

/-- Two live tickets of one number are the same ticket. -/
theorem KitchenFits.eq_of_number {s : State} (k : KitchenFits s) {t u : Ticket} (ht : t ∈ s.liveTickets)
    (hu : u ∈ s.liveTickets) (h : t.number = u.number) : t = u :=
  List.inj_on_of_nodup_map k.numbers ht hu h

/-- A live ticket whose number is not in the overflow list stands in the queue of its station. -/
theorem KitchenFits.in_queue {s : State} (k : KitchenFits s) {t : Ticket} (ht : t ∈ s.liveTickets)
    (h : s.inOverflow t.number = false) : t ∈ (s.station t.station).queue := by
  rcases mem_liveTickets.1 ht with ⟨p, hp⟩ | ho
  · exact k.places p t hp ▸ hp
  · exact absurd (inOverflow_iff.2 ⟨t, ho, rfl⟩) (by simp [h])

theorem KitchenFits.in_overflow {s : State} (k : KitchenFits s) {t : Ticket} (ht : t ∈ s.liveTickets)
    (h : s.inOverflow t.number = true) : t ∈ s.overflow := by
  obtain ⟨y, hy, e⟩ := inOverflow_iff.1 h
  exact k.eq_of_number ht (mem_liveTickets.2 (.inr hy)) e.symm ▸ hy

theorem overflow_filter_kept {s : State} (k : KitchenFits s) {t : Ticket} (h : t ∈ s.overflow) :
    KitchenFits { s with overflow := s.overflow.filter (fun u => u.number ≠ t.number) } ∧
    s.liveKeys.Perm (ticketKey t :: { s with overflow := s.overflow.filter (fun u => u.number ≠ t.number) }.liveKeys) := by
  refine ⟨k.overflow_sublist List.filter_sublist, ?_⟩
  have hn : (s.overflow.map Ticket.number).Nodup := by
    have := k.numbers
    rw [State.liveTickets, List.map_append] at this
    exact this.of_append_right
  have herase : s.overflow.erase t = s.overflow.filter (fun u => u.number ≠ t.number) := by
    rw [(hn.of_map _).erase_eq_filter]
    refine List.filter_congr fun u hu => ?_
    by_cases hut : u = t
    · simp [hut]
    · have : u.number ≠ t.number := fun e => hut (List.inj_on_of_nodup_map hn hu h e)
      simp [hut, this]
  rw [← herase]
  exact (liveTickets_overflow_erase s h).map ticketKey

/-! ### A line struck from a ticket (R83) -/

/-- A struck ticket that keeps lines is the same live ticket. -/
theorem TicketsKept.overflow_map (s : State) {n : Nat} {u : Ticket}
    (hu : KitchenFits s → ∀ t ∈ s.overflow, t.number = n → ticketKey u = ticketKey t) :
    TicketsKept s { s with overflow := s.overflow.map (fun x => if x.number = n then u else x) } := by
  have hkeys : KitchenFits s →
      (s.overflow.map (fun x => if x.number = n then u else x)).map ticketKey = s.overflow.map ticketKey := fun k => by
    simp only [List.map_map]
    refine List.map_congr_left fun t ht => ?_
    by_cases h : t.number = n
    · simp [h, hu k t ht h]
    · simp [h]
  have hlive : KitchenFits s →
      State.liveKeys { s with overflow := s.overflow.map (fun x => if x.number = n then u else x) } = s.liveKeys := fun k => by
    simp only [State.liveKeys, State.liveTickets, List.map_append, hkeys k]
    rfl
  refine ⟨fun k => ⟨k.stations, by simpa using k.overflow, ?_, k.places, k.counter⟩, fun k => .of_eq (hlive k), fun _ _ h => h, rfl⟩
  have := congrArg (List.map Prod.fst) (hlive k)
  simp only [State.liveKeys, List.map_map, Function.comp_def, ticketKey] at this
  exact this ▸ k.numbers

/-- Everything striking a line can do (R83, R84). -/
theorem strikeLine_cases (s : State) (t : Ticket) (line : Nat) :
    ((struckTicket line t).lines = [] ∧ s.strikeLine t line = s.removeTicket t) ∨
    ((struckTicket line t).lines ≠ [] ∧ s.inOverflow t.number = true ∧ s.strikeLine t line =
      { s with overflow := s.overflow.map (fun x => if x.number = t.number then struckTicket line t else x) }) ∨
    ((struckTicket line t).lines ≠ [] ∧ s.inOverflow t.number = false ∧ s.strikeLine t line =
      if t.state = .sent then (s.mapTicket t.station t.number (fun _ => struckTicket line t)).leaveSent t.station t.number
      else s.mapTicket t.station t.number (fun _ => struckTicket line t)) := by
  unfold State.strikeLine
  by_cases h1 : (struckTicket line t).lines = []
  · exact .inl ⟨h1, if_pos h1⟩
  · cases h2 : s.inOverflow t.number with
    | true => exact .inr (.inl ⟨h1, rfl, by simp [h1]⟩)
    | false => exact .inr (.inr ⟨h1, rfl, by simp [h1]⟩)

/-- A strike that leaves the ticket lines keeps the live tickets. -/
theorem TicketsKept.strikeLine {s : State} {t : Ticket} (ht : t ∈ s.liveTickets) (line : Nat)
    (h : (struckTicket line t).lines ≠ []) : TicketsKept s (s.strikeLine t line) := by
  rcases strikeLine_cases s t line with ⟨h0, -⟩ | ⟨-, -, e⟩ | ⟨-, ho, e⟩
  · exact absurd h0 h
  · rw [e]
    refine .overflow_map s fun k u hu hn => ?_
    rw [k.eq_of_number (mem_liveTickets.2 (.inr hu)) ht hn]
    rfl
  · have hmap : TicketsKept s (s.mapTicket t.station t.number (fun _ => struckTicket line t)) := by
      refine .mapTicket s _ _ fun k u hu hn => ?_
      rw [k.eq_of_number (mem_liveTickets_of_queue hu) ht hn]
      exact ⟨rfl, rfl⟩
    rw [e]
    split
    · exact hmap.trans (.leaveSent _ _ _)
    · exact hmap

/-! ### A ticket that comes back (R81) -/

/-- The station of a RECALL, with the ticket at the head of its queue. -/
def recalledStation (s : State) (p : Port) (t : Ticket) : Station :=
  { s.station p with recalls := (s.station p).recalls.tail, queue := s.recalledTicket p t :: (s.station p).queue }

theorem recallEntry_eq (s : State) (p : Port) (t : Ticket) : s.recallEntry p t =
    State.raiseLive { s.setStation p (recalledStation s p t) with
      ticketCounter := if s.isLiveNumber t.number then nextNumber (s.recallNumber t) else s.ticketCounter } t.tab 1 := rfl

theorem recallNumber_fresh {s : State} (k : KitchenFits s) (t : Ticket) :
    s.recallNumber t ∉ s.liveTickets.map Ticket.number := by
  unfold State.recallNumber
  split
  · exact k.freshNumber.2
  · rename_i h; exact fun hm => h ((isLiveNumber_iff s _).2 hm)

theorem recalledStation_kept {s : State} (k : KitchenFits s) {p : Port} (hlen : (s.station p).queue.length < 24) (t : Ticket) :
    KitchenFits { s.setStation p (recalledStation s p t) with
      ticketCounter := if s.isLiveNumber t.number then nextNumber (s.recallNumber t) else s.ticketCounter } ∧
    { s.setStation p (recalledStation s p t) with
      ticketCounter := if s.isLiveNumber t.number then nextNumber (s.recallNumber t) else s.ticketCounter }.liveKeys.Perm
      ((s.recallNumber t, t.tab) :: s.liveKeys) := by
  have hq : (recalledStation s p t).queue.Perm (s.recalledTicket p t :: (s.station p).queue) := .rfl
  have hfits : StationFits (recalledStation s p t) :=
    ⟨by simpa [recalledStation] using hlen, (k.stations p).sent, (k.stations p).window,
      by simpa [recalledStation] using Nat.le_succ_of_le (k.stations p).recalls⟩
  refine ⟨(k.enter hfits hq rfl (recallNumber_fresh k t)).counter_set ?_, (liveTickets_enter s p hq).map ticketKey⟩
  split
  · exact nextNumber_range _
  · exact k.counter

end Sys2Proof.Machine
end

section
/-! PROOFS. The order engine's plan (R54, R55): what the line checks let pass, in quantity, total and stock. -/

namespace Sys2Proof.Machine

-- One theorem after another: as many checks at once take a thread each.
set_option Elab.async false

open Sys2Proof.Statements

/-! ### Totals grow with the charges (R113) -/

theorem classNet_mono {l m : List Charge} (h : l.Sublist m) (c : TaxClass) : classNet c l ≤ classNet c m :=
  List.Sublist.sum_le_sum ((h.filter _).map _) fun _ _ => Nat.zero_le _

theorem atRate_mono {a b : Nat} (h : a ≤ b) (rate : Nat) : atRate a rate ≤ atRate b rate :=
  Nat.div_le_div_right (Nat.add_le_add_right (Nat.mul_le_mul_right rate h) _)

theorem totalsOf_mono (taxRates : Vector Nat 4) (serviceRate : Nat) {l m : List Charge} (h : l.Sublist m) :
    (totalsOf taxRates serviceRate l).total ≤ (totalsOf taxRates serviceRate m).total := by
  have hn := classNet_mono h
  have hs := atRate_mono (a := classNet 0 l + classNet 1 l + classNet 2 l + classNet 3 l)
    (b := classNet 0 m + classNet 1 m + classNet 2 m + classNet 3 m)
    (by have := hn 0; have := hn 1; have := hn 2; have := hn 3; omega) serviceRate
  have ht := fun c => atRate_mono (hn c) taxRates[c.val]
  have := hn 0; have := hn 1; have := hn 2; have := hn 3
  have := ht 0; have := ht 1; have := ht 2; have := ht 3
  simp only [totalsOf, amountsSum, amountsNet, amountsTax, perClass, Vector.getElem_mk, List.getElem_toArray,
    List.getElem_cons_zero, List.getElem_cons_succ] at *
  omega

/-! ### The line checks (R54) -/

/-- The quantity of an item among passed lines. -/
def passedQuantity (item : Nat) (passed : List PassedLine) : Nat :=
  ((passed.filter (fun l => l.item = item)).map (fun l => l.quantity)).sum

theorem passedQuantity_append (item : Nat) (l m : List PassedLine) :
    passedQuantity item (l ++ m) = passedQuantity item l + passedQuantity item m := by
  simp [passedQuantity]

theorem passedQuantity_cons (item : Nat) (x : PassedLine) (l : List PassedLine) :
    passedQuantity item (x :: l) = (if x.item = item then x.quantity else 0) + passedQuantity item l := by
  by_cases h : x.item = item <;> simp [passedQuantity, h]

theorem passedQuantity_mono {l m : List PassedLine} (h : l.Sublist m) (item : Nat) :
    passedQuantity item l ≤ passedQuantity item m :=
  List.Sublist.sum_le_sum ((h.filter _).map _) fun _ _ => Nat.zero_le _

/-- What the lines that have passed so far keep to: the tab's 48 lines, the total's limit, and each item's stock. -/
structure LinesFit (s : State) (g : Group) (existing : List TabLine) (passed : List PassedLine) : Prop where
  room  : passed ≠ [] → existing.length + passed.length ≤ 48
  total : passed ≠ [] →
    (totalsOf s.taxRates (s.serviceRate g) (chargesOf existing ++ passed.map PassedLine.charge)).total ≤ Config.totalLimit
  stock : ∀ c item t, s.item c = some item → item.tracking = some t → passedQuantity c passed ≤ t.stock

theorem LinesFit.nil (s : State) (g : Group) (existing : List TabLine) : LinesFit s g existing [] :=
  ⟨fun h => absurd rfl h, fun h => absurd rfl h, fun _ _ _ _ _ => Nat.zero_le _⟩

theorem LinesFit.sublist {s : State} {g : Group} {existing : List TabLine} {l m : List PassedLine}
    (h : LinesFit s g existing m) (hs : l.Sublist m) : LinesFit s g existing l := by
  have hne : l ≠ [] → m ≠ [] := fun hl hm => hl (List.sublist_nil.1 (hm ▸ hs))
  refine ⟨fun hl => ?_, fun hl => ?_, fun c item t hi ht => (passedQuantity_mono hs c).trans (h.stock c item t hi ht)⟩
  · have := h.room (hne hl); have := hs.length_le; omega
  · exact (totalsOf_mono _ _ ((hs.map _).append_left _)).trans (h.total (hne hl))

/-- Everything a line that passes has passed: its item is defined and its price and class are copied; the tab, the stock and the total have
room for it. -/
theorem checkLine_passed {s : State} {g : Group} {existing : List TabLine} {passed : List PassedLine} {index : Nat}
    {l : OrderLine} {x : PassedLine} (h : s.checkLine g existing passed index l = .passed x) :
    ∃ i, s.item l.item = some i ∧
      x = { index := index, item := l.item, quantity := l.quantity, modifier := l.modifier, price := i.price,
            taxClass := i.taxClass, station := i.station } ∧
      existing.length + passed.length < 48 ∧ stockShort i l.item l.quantity passed = none ∧
      (totalsOf s.taxRates (s.serviceRate g)
        (chargesOf existing ++ (passed.map PassedLine.charge ++ [x.charge]))).total ≤ Config.totalLimit := by
  unfold State.checkLine at h
  split at h
  · cases h
  · rename_i i hi
    split at h
    · cases h
    · split at h
      · cases h
      · rename_i hroom _ hstock
        dsimp only at h
        split at h
        · cases h
        · rename_i htotal
          cases h
          exact ⟨i, hi, rfl, by omega, hstock, not_lt.1 htotal⟩

theorem stockShort_none {i : Item} {item quantity : Nat} {passed : List PassedLine} {t : Tracking}
    (h : stockShort i item quantity passed = none) (ht : i.tracking = some t) :
    quantity ≤ t.stock - passedQuantity item passed := by
  simp only [stockShort, ht] at h
  split at h
  · cases h
  · rename_i hle; exact not_lt.1 hle

theorem LinesFit.passed {s : State} {g : Group} {existing : List TabLine} {passed : List PassedLine} {index : Nat}
    {l : OrderLine} {x : PassedLine} (h : LinesFit s g existing passed)
    (hx : s.checkLine g existing passed index l = .passed x) : LinesFit s g existing (passed ++ [x]) := by
  obtain ⟨i, hi, e, hroom, hstock, htotal⟩ := checkLine_passed hx
  refine ⟨fun _ => by simp; omega, fun _ => by simpa using htotal, fun c item t hc ht => ?_⟩
  rw [passedQuantity_append, passedQuantity_cons]
  have hbefore := h.stock c item t hc ht
  by_cases hitem : x.item = c
  · have hl : l.item = c := by rw [← hitem, e]
    have hq : x.quantity = l.quantity := by rw [e]
    rw [hl] at hi hstock
    cases Option.some.inj (hi.symm.trans hc)
    have := stockShort_none hstock ht
    have h0 : passedQuantity c [] = 0 := rfl
    simp only [hitem, if_true, hq, h0]
    omega
  · have h0 : passedQuantity c [] = 0 := rfl
    simpa [hitem, h0] using hbefore

theorem passedLines_cons (c : LineCheck) (l : List LineCheck) : passedLines (c :: l) = passedLines [c] ++ passedLines l := by
  cases c <;> simp [passedLines]

/-- The lines that pass, with those passed before them, keep to the limits; they carry the numbers of their places in the request. -/
theorem checkLines_fit {s : State} {g : Group} {existing : List TabLine} (lines : List OrderLine) {passed : List PassedLine}
    {index : Nat} (h : LinesFit s g existing passed) :
    LinesFit s g existing (passed ++ passedLines (s.checkLines g existing passed index lines)) := by
  induction lines generalizing passed index with
  | nil => simpa [State.checkLines, passedLines] using h
  | cons l lines ih =>
    rw [State.checkLines, passedLines_cons, ← List.append_assoc]
    refine ih ?_
    cases hc : s.checkLine g existing passed index l with
    | passed x => simpa [passedLines] using h.passed hc
    | _ => simpa [passedLines] using h

theorem checkLines_index {s : State} {g : Group} {existing : List TabLine} (lines : List OrderLine) {passed : List PassedLine}
    {index : Nat} : (∀ x ∈ passedLines (s.checkLines g existing passed index lines), index ≤ x.index) ∧
      ((passedLines (s.checkLines g existing passed index lines)).map PassedLine.index).Pairwise (· < ·) := by
  induction lines generalizing passed index with
  | nil => simp [State.checkLines, passedLines]
  | cons l lines ih =>
    rw [State.checkLines, passedLines_cons]
    obtain ⟨hle, hpw⟩ := ih (passed := passed ++ passedLines [s.checkLine g existing passed index l]) (index := index + 1)
    cases hc : s.checkLine g existing passed index l with
    | passed x =>
      obtain ⟨i, -, e, -⟩ := checkLine_passed hc
      rw [hc] at hle hpw
      have hx : x.index = index := by rw [e]
      refine ⟨fun y hy => ?_, ?_⟩
      · rcases List.mem_append.1 hy with hy | hy
        · rw [List.mem_singleton.1 hy, hx]
        · exact (Nat.le_succ _).trans (hle y hy)
      · refine List.pairwise_cons.2 ⟨fun n hn => ?_, hpw⟩
        obtain ⟨y, hy, rfl⟩ := List.mem_map.1 hn
        rw [hx]
        exact hle y hy
    | _ =>
      rw [hc] at hle hpw
      exact ⟨fun y hy => (Nat.le_succ _).trans (hle y hy), hpw⟩

/-! ### The plan (R54, R55) -/

theorem planOrder_accepted_sublist (s : State) (g : Group) (existing : List TabLine) (lines : List OrderLine) :
    (s.planOrder g existing lines).accepted.Sublist (passedLines (s.planOrder g existing lines).checks) :=
  List.filter_sublist

/-- The accepted lines keep to the limits. -/
theorem planOrder_fits (s : State) (g : Group) (existing : List TabLine) (lines : List OrderLine) :
    LinesFit s g existing (s.planOrder g existing lines).accepted := by
  have h := checkLines_fit lines (index := 0) (LinesFit.nil s g existing)
  rw [List.nil_append] at h
  exact h.sublist (planOrder_accepted_sublist s g existing lines)

theorem planOrder_index (s : State) (g : Group) (existing : List TabLine) (lines : List OrderLine) :
    ((s.planOrder g existing lines).accepted.map PassedLine.index).Pairwise (· < ·) :=
  (checkLines_index (s := s) (g := g) (existing := existing) lines (passed := []) (index := 0)).2.sublist
    ((planOrder_accepted_sublist s g existing lines).map _)

/-! ### The commit (R56) -/

/-- The charges of the lines that an order appends are those of its accepted lines. -/
theorem chargesOf_newLines (number : Nat → Nat) (created : List (Nat × List PassedLine)) (accepted : List PassedLine) :
    chargesOf (accepted.map (newLine number created)) = accepted.map PassedLine.charge := by
  induction accepted with
  | nil => rfl
  | cons x l ih => simpa [chargesOf, newLine, lineCharge, PassedLine.charge] using ih

theorem chargesOf_append (l m : List TabLine) : chargesOf (l ++ m) = chargesOf l ++ chargesOf m := List.filterMap_append

theorem item_mapTracking (s : State) (c d : Nat) (f : Tracking → Tracking) : (s.mapTracking c f).item d =
    if d = c then (s.item d).map (fun x => { x with tracking := x.tracking.map f }) else s.item d := by
  unfold State.mapTracking
  by_cases hd : d = c
  · subst hd
    cases h : s.item d with
    | none => simp [h]
    | some i => simp
  · cases h : s.item c with
    | none => simp [hd]
    | some i => simp [hd, State.item_setItem_other]

/-- An order's sales, item by item: each item has sold what the accepted lines take of it (R48, R56). -/
theorem item_sell (accepted : List PassedLine) (s : State) (c : Nat) :
    (accepted.foldl (fun acc l => acc.mapTracking l.item (sellStock l.quantity)) s).item c =
      (s.item c).map (fun x => { x with tracking := x.tracking.map (sellStock (passedQuantity c accepted)) }) := by
  induction accepted generalizing s with
  | nil =>
    have hid : sellStock 0 = id := funext fun t => rfl
    have : passedQuantity c [] = 0 := rfl
    simp [this, hid]
  | cons l accepted ih =>
    rw [List.foldl_cons, ih, item_mapTracking, passedQuantity_cons]
    by_cases hc : c = l.item
    · simp only [hc, if_true, Option.map_map, Function.comp_def]
      congr 1
      funext x
      congr 2
      funext t
      simp [sellStock]
      omega
    · simp [hc, Ne.symm hc]

end Sys2Proof.Machine
end

section
/-! PROOFS. What every command keeps of the capacities, the stock, the records and the tables' one form: `Keeps`, block by block, up to
the statements on a step (O2, O4 to O7). -/

namespace Sys2Proof.Invariants

-- One theorem after another: as many checks at once take a thread each.
set_option Elab.async false

open Sys2Proof Sys2Proof.Machine Sys2Proof.Statements

variable {ok : Prop} {a s t : State}

/-! ### The kitchen unit -/

/-- An operation by which the live tickets stay the same ones. -/
theorem Keeps.tickets (h : Keeps ok a s) (k : TicketsKept s t) : Keeps ok a t := by
  refine h.trans ?_
  have hfits := k.fits
  rw [k.frame] at hfits ⊢
  exact { kitchen := hfits }

theorem station_map (s : State) (f : Station → Station) (p : Port) :
    ({ s with stations := s.stations.map f } : State).station p = f (s.station p) := by
  simp [State.station]

/-- A change of every station that leaves its queue, sent list and window. -/
theorem Keeps.mapStations (h : Keeps ok a s) {f : Station → Station}
    (hf : ∀ x, (f x).queue = x.queue ∧ (f x).sent = x.sent ∧ (f x).window = x.window ∧
      (f x).recalls.length = x.recalls.length) : Keeps ok a { s with stations := s.stations.map f } := by
  have hlive : ({ s with stations := s.stations.map f } : State).liveTickets = s.liveTickets := by
    simp only [State.liveTickets, station_map, (hf _).1]
  refine h.trans { kitchen := fun k => ⟨fun p => ?_, k.overflow, hlive ▸ k.numbers, fun p x hx => ?_, k.counter⟩ }
  · obtain ⟨hq, hs, hw, hr⟩ := hf (s.station p)
    have kp := k.stations p
    rw [station_map]
    exact ⟨hq ▸ kp.queue, by rw [hs, hw]; exact kp.sent, by rw [hw]; exact kp.window, hr ▸ kp.recalls⟩
  · rw [station_map, (hf _).1] at hx
    exact k.places p x hx

theorem Keeps.sendTicket (h : Keeps ok a s) {p : Port} (hp : s.maySendTicket p = true) (t : Ticket) :
    Keeps ok a (s.sendTicket p t) := by
  simp only [State.maySendTicket, Bool.and_eq_true, decide_eq_true_eq] at hp
  obtain ⟨⟨⟨⟨-, hsent⟩, hroom⟩, -⟩, -⟩ := hp
  have h2 : Keeps ok a ((s.sendOwn p .ticket (ticketBody t) .own).mapTicket p t.number
      (fun u => { u with state := .sent, everTransmitted := true })) :=
    (h.sendOwn hroom).tickets (.mapTicket _ p _ fun _ _ _ _ => ⟨rfl, rfl⟩)
  unfold State.sendTicket
  dsimp only
  generalize hs2 : (s.sendOwn p .ticket (ticketBody t) .own).mapTicket p t.number
    (fun u => { u with state := .sent, everTransmitted := true }) = s2 at h2 ⊢
  have hlen : (s2.station p).sent.length < (s2.station p).window := by
    rw [← hs2, State.mapTicket, State.station_setStation_self]; exact hsent
  have h3 : Keeps ok a (s2.setStation p { s2.station p with sent := (s2.station p).sent ++ [t.number] }) :=
    h2.tickets (.setStation_same rfl rfl fun _ w => ⟨by simpa using hlen, w⟩)
  split
  · exact h3.tickets (.restartAck _ p)
  · exact h3

theorem Keeps.resync (h : Keeps ok a s) (p : Port) (c : Fin 4) :
    Keeps ok a (s.setStation p { s.station p with resync := c }) :=
  h.tickets (.setStation_same rfl rfl fun k w => ⟨k, w⟩)

theorem Keeps.offerWithdraw (h : Keeps ok a s) (t : Ticket) : Keeps ok a (s.offerWithdraw t) := by
  unfold State.offerWithdraw
  split
  · split
    · rename_i hroom; exact h.sendOwn hroom
    · exact h.resync _ _
  · exact h

theorem Keeps.sendImage (h : Keeps ok a s) {p : Port} (hroom : (s.port p).hasRoom = true) (c : Fin 4) :
    Keeps ok a (s.sendImage p c) := (h.sendOwn hroom).resync p c

theorem Keeps.removeFromQueue (h : Keeps ok a s) (p : Port) (n : Nat) : Keeps ok a (s.removeFromQueue p n) := by
  refine h.trans ?_
  have hfits := fun k : KitchenFits s => k.removeFromQueue p n
  rw [removeFromQueue_eq] at hfits ⊢
  exact { kitchen := hfits }

theorem Keeps.overflow_sublist (h : Keeps ok a s) {l : List Ticket} (hl : l.Sublist s.overflow) :
    Keeps ok a { s with overflow := l } :=
  h.trans { kitchen := fun k => k.overflow_sublist hl }

theorem Keeps.removeTicket (h : Keeps ok a s) (t : Ticket) : Keeps ok a (s.removeTicket t) := by
  unfold State.removeTicket
  split
  · exact ((h.overflow_sublist List.filter_sublist).lowerLive t.tab).offerWithdraw t
  · exact (((h.removeFromQueue t.station t.number).lowerLive t.tab).tickets (.promote _)).offerWithdraw t

theorem Keeps.strikeLine (h : Keeps ok a s) {t : Ticket} (ht : t ∈ s.liveTickets) (line : Nat) :
    Keeps ok a (s.strikeLine t line) := by
  by_cases hl : (struckTicket line t).lines = []
  · rw [show s.strikeLine t line = s.removeTicket t from if_pos hl]
    exact h.removeTicket t
  · exact h.tickets (.strikeLine ht line hl)

theorem Keeps.bumpTicket (h : Keeps ok a s) (p : Port) (t : Ticket) : Keeps ok a (s.bumpTicket p t) := by
  have h1 := (h.removeFromQueue p t.number).lowerLive t.tab
  unfold State.bumpTicket
  generalize (s.removeFromQueue p t.number).lowerLive t.tab = s1 at h1 ⊢
  refine Keeps.tickets (h1.trans { kitchen := fun k => ?_ }) (.promote _)
  exact k.shrink ⟨(k.stations p).queue, (k.stations p).sent, (k.stations p).window, by simp [pushRecall]⟩ (.refl _)

theorem Keeps.recallEntry (h : Keeps ok a s) {p : Port} (hlen : (s.station p).queue.length < 24) (t : Ticket) :
    Keeps ok a (s.recallEntry p t) := by
  rw [recallEntry_eq]
  refine Keeps.raiseLive (h.trans ?_) _ _
  exact { kitchen := fun k => (recalledStation_kept k hlen t).1 }

theorem Keeps.helloStation (h : Keeps ok a s) (p : Port) : Keeps ok a (s.helloStation p) := by
  have h1 := h.tickets ((TicketsKept.hello s p).trans (.promote _))
  unfold State.helloStation
  dsimp only
  split
  · exact h1
  · exact h1.raise _

theorem Keeps.ackExpiry (h : Keeps ok a s) (p : Port) (d : Nat) : Keeps ok a (s.ackExpiry p d) :=
  ((h.reach d).tickets (.darkHandling _ p)).raise _

theorem Keeps.kitchenReset (h : Keeps ok a s) (p : Port) : Keeps ok a (s.kitchenReset p) := by
  have h1 : Keeps ok a (s.setStation p { s.station p with recalls := [], lastBump := none }) :=
    h.trans { kitchen := fun k => k.shrink ⟨(k.stations p).queue, (k.stations p).sent, (k.stations p).window,
      Nat.zero_le _⟩ (.refl _) }
  have h2 := (h1.tickets (.darkHandling _ p)).resync p 3
  unfold State.kitchenReset
  dsimp only
  split
  · exact h2.raise _
  · exact h2

/-- A station as a load replaces its entry, before the window takes effect. -/
def loadedStation (x : Station) (e : StationEntry) : Station :=
  { x with alternate := e.alternate, balance := e.balance, window := e.window }

theorem loadStation_eq (s : State) (q : Port) (e : StationEntry) :
    s.loadStation (q, e) = (s.setStation q (loadedStation (s.station q) e)).fitWindow q := rfl

/-- Returning the newest SENT ticket does not look at the window. -/
theorem unsendNewest_windowed (u : State) (q : Port) (w : Nat) :
    (u.setStation q { u.station q with window := w }).unsendNewest q =
      (u.unsendNewest q).setStation q { (u.unsendNewest q).station q with window := w } := by
  unfold State.unsendNewest
  rw [State.station_setStation_self]
  cases (u.station q).sent.getLast? with
  | none => rfl
  | some n => simp only [State.mapTicket, leaveSent_eq, State.station_setStation_self, State.setStation_setStation]; rfl

theorem unsend_windowed (q : Port) (w : Nat) (l : List Nat) (u : State) :
    l.foldl (fun acc _ => acc.unsendNewest q) (u.setStation q { u.station q with window := w }) =
      (l.foldl (fun acc _ => acc.unsendNewest q) u).setStation q
        { (l.foldl (fun acc _ => acc.unsendNewest q) u).station q with window := w } := by
  induction l generalizing u with
  | nil => rfl
  | cons _ l ih => rw [List.foldl_cons, unsendNewest_windowed, ih]; rfl

/-- A load of a window of 1 to 4: the SENT tickets beyond it go back before the capacities are looked at. -/
theorem loadStation_fits {s : State} (k : KitchenFits s) {q : Port} {e : StationEntry} (hw : 1 ≤ e.window ∧ e.window ≤ 4) :
    KitchenFits (s.loadStation (q, e)) := by
  rw [loadStation_eq]
  generalize hs1 : s.setStation q (loadedStation (s.station q) e) = s1
  have hx : s1.station q = loadedStation (s.station q) e := by rw [← hs1, State.station_setStation_self]
  -- with a window as large as the sent list everything fits, and un-sending keeps it so
  let wide : Station := { loadedStation (s.station q) e with window := (s.station q).window }
  have hfit := fitWindow_sent s1 q
  rw [hx] at hfit
  have hwide : s1 = (s.setStation q wide).setStation q { (s.setStation q wide).station q with window := e.window } := by
    rw [← hs1, State.station_setStation_self, State.setStation_setStation]; rfl
  have kwide : KitchenFits (s.setStation q wide) :=
    k.shrink ⟨(k.stations q).queue, (k.stations q).sent, (k.stations q).window, (k.stations q).recalls⟩ (.refl _)
  have hl := fun n => unsend_windowed q e.window (List.range n) (s.setStation q wide)
  rw [← hwide] at hl
  have kl : ∀ n, KitchenFits ((List.range n).foldl (fun acc _ => acc.unsendNewest q) (s.setStation q wide)) :=
    fun n => (TicketsKept.foldl _ (.refl _) fun u _ => .unsendNewest u q).fits kwide
  unfold State.fitWindow at hfit ⊢
  generalize (s1.station q).sent.length - (s1.station q).window = n at hfit ⊢
  specialize hl n
  have ku := kl n
  rw [hl] at hfit ⊢
  simp only [State.station_setStation_self] at hfit
  refine ku.shrink ⟨(ku.stations q).queue, ?_, hw, (ku.stations q).recalls⟩ (.refl _)
  exact hfit.1.trans_le (min_le_right _ _)

end Sys2Proof.Invariants
end

section
/-! PROOFS. What the requests on tabs keep: the changes of state, ORDER, VOID, SPLIT, CANCEL SPLIT, TENDER, RESUME, READ TAB, COLLECT and
DISCARD TAB as they execute at a slot. -/

namespace Sys2Proof.Invariants

-- One theorem after another: as many checks at once take a thread each.
set_option Elab.async false

open Sys2Proof Sys2Proof.Machine Sys2Proof.Statements

variable {ok : Prop} {a s t : State}

/-! ### The changes of a tab's state -/

theorem Keeps.closeTab (h : Keeps ok a s) (tab : Nat) : Keeps ok a (s.closeTab tab) := by
  have h1 := (h.endHold tab).setDir tab { (s.endHold tab).dir tab with state := .closed }
  exact h1.trans {}

theorem Keeps.freeTab (h : Keeps ok a s) (tab : Nat) : Keeps ok a (s.freeTab tab) :=
  (((h.endHold tab).setDir tab _).mapStations (f := markGone tab) fun _ => ⟨rfl, rfl, rfl, List.length_map _⟩).trans {}

theorem Keeps.damageTab (h : Keeps ok a s) (tab : Nat) : Keeps ok a (s.damageTab tab) := by
  have h1 := (h.endHold tab).setDir tab { (s.endHold tab).dir tab with state := .damaged, slot := none }
  exact h1.trans {}

theorem recordFits_withoutPlan {r : TabRecord} (h : RecordFits r) : RecordFits { r with plan := none } :=
  ⟨h.1, nofun⟩

/-- A record of a slot that is written again with figures in range. -/
theorem Keeps.rewriteRecord (h : Keeps ok a s) {i : SlotId} {r : TabRecord} (hr : (s.slot i).record = some r) {r' : TabRecord}
    (hf : RecordFits r → RecordFits r') : Keeps ok a (s.writeRecord i r') :=
  h.writeRecord fun hok k => hf ((h.records hok k).cache i r hr)

theorem Keeps.dropPlan (h : Keeps ok a s) (i : SlotId) : Keeps ok a (s.dropPlan i) := by
  unfold State.dropPlan
  split
  · exact h
  · rename_i r hr
    split
    · exact h
    · exact h.rewriteRecord hr recordFits_withoutPlan

theorem Keeps.releaseHold (h : Keeps ok a s) (p : Port) (cause : HoldCause) : Keeps ok a (s.releaseHold p cause) := by
  unfold State.releaseHold
  split
  · exact h
  · rename_i x _
    have h1 := h.setHold p none
    refine Keeps.raise ?_ _
    dsimp only
    split
    · exact h1.setDir _ _
    · split
      · exact h1.setDir _ _
      · exact (h1.setDir _ _).dropPlan _

/-! ### ORDER and VOID -/

theorem Keeps.openTab (h : Keeps ok a s) (i : SlotId) (tab : Nat) (rest : List Nat) (g : Group) :
    Keeps ok a (s.openTab i tab rest g) := by
  have h1 := h.setDir tab
    { state := .opened, group := some g, holder := none, paidInPart := false, live := 0, slot := some i }
  exact h1.trans {}

/-- Selling no more of each item than its stock (R48, R56). -/
theorem Keeps.sell (h : Keeps ok a s) {accepted : List PassedLine}
    (hstock : ∀ c item t, s.item c = some item → item.tracking = some t → passedQuantity c accepted ≤ t.stock) :
    Keeps ok a (accepted.foldl (fun acc l => acc.mapTracking l.item (sellStock l.quantity)) s) := by
  induction accepted generalizing s with
  | nil => exact h
  | cons l rest ih =>
    refine ih (h.mapTracking fun hb i t hi ht => ?_) fun c item t hi ht => ?_
    · have hq := hstock l.item i t hi ht
      rw [passedQuantity_cons, if_pos rfl] at hq
      obtain ⟨hsum, hlevel⟩ := balanced_of_item hb hi ht
      exact ⟨show t.stock - l.quantity + (t.sold + l.quantity) = t.level by omega, hlevel⟩
    · rw [item_mapTracking] at hi
      by_cases hc : c = l.item
      · rw [if_pos hc] at hi
        obtain ⟨item0, hi0, rfl⟩ := Option.map_eq_some_iff.1 hi
        obtain ⟨t0, ht0, rfl⟩ := Option.map_eq_some_iff.1 ht
        have hq := hstock c item0 t0 hi0 ht0
        rw [passedQuantity_cons, if_pos hc.symm] at hq
        exact show _ ≤ t0.stock - l.quantity by omega
      · rw [if_neg hc] at hi
        have hq := hstock c item t hi ht
        rwa [passedQuantity_cons, if_neg (Ne.symm hc), Nat.zero_add] at hq

theorem Keeps.createTickets (h : Keeps ok a s) (judged : State) (tab : Nat) (origin : Port) (rush : Bool) (number : Nat → Nat)
    (formed : List (Port × List PassedLine)) (hjudged : PlacesTaken judged s []) :
    Keeps ok a (Machine.createTickets tab origin rush number (judged.judgeTickets [] formed) s).1 := by
  have hkept := createTickets_kept judged tab origin rush number formed hjudged
  obtain ⟨-, stations, overflow, counter, e⟩ :=
    createTickets_frame tab origin rush number (judged.judgeTickets [] formed) s
  simp only [e] at hkept ⊢
  exact h.trans { kitchen := fun k => (hkept k).1 }

/-- Steps 2 to 6 of R56 with what R54 and R55 accept, in a state with the kitchen lists and items in which they were judged. -/
theorem Keeps.commitOrder (h : Keeps ok a s) {judged before : State} {p : Port} {rush : Bool} {r : TabRecord} {g : Group}
    {existing : List TabLine} {lines : List OrderLine} (hjudged : PlacesTaken judged s [])
    (hitems : ∀ c, s.item c = judged.item c) :
    Keeps ok a (Machine.commitOrder before s p rush r (judged.planOrder g existing lines)).state := by
  unfold Machine.commitOrder
  have h1 := h.createTickets judged r.tab p rush (lineNumberOf (highestLine r.lines) (judged.planOrder g existing lines).accepted)
    (judged.formTickets (passedLines (judged.checkLines g existing [] 0 lines))) hjudged
  refine Keeps.latchItems (Keeps.raiseLive (h1.sell fun c item t hi ht => ?_) _ _) _ _
  refine (planOrder_fits judged g existing lines).stock c item t ?_ ht
  rw [← hitems, ← hi]
  obtain ⟨-, stations, overflow, counter, e⟩ := createTickets_frame r.tab p rush
    (lineNumberOf (highestLine r.lines) (judged.planOrder g existing lines).accepted)
    (judged.judgeTickets [] (judged.formTickets (passedLines (judged.checkLines g existing [] 0 lines)))) s
  rw [e]
  rfl

/-- The record that a commit writes is in range, with the plan it had (R56). -/
theorem commitOrder_record_fits {before s judged : State} {p : Port} {rush : Bool} {r : TabRecord} {lines : List OrderLine}
    (hrates : s.taxRates = judged.taxRates) (hservice : s.serviceRate r.group = judged.serviceRate r.group)
    (hne : (judged.planOrder r.group r.lines lines).accepted ≠ [])
    (hplan : ∀ plan, r.plan = some plan → ∀ x ∈ plan.shares, x.credited ≤ x.due) :
    RecordFits (commitOrder before s p rush r (judged.planOrder r.group r.lines lines)).record := by
  refine ⟨?_, hplan⟩
  change (totalsOf s.taxRates (s.serviceRate r.group) (chargesOf (_ ++ _))).total ≤ _
  rw [hrates, hservice, chargesOf_append, chargesOf_newLines]
  exact (planOrder_fits judged r.group r.lines lines).total hne

theorem Keeps.performOrder (h : Keeps ok a s) (i : SlotId) (p : Port) (tab : Nat) (rush : Bool) (lines : List OrderLine) :
    Keeps ok a (performOrder i p tab rush lines s) := by
  unfold Machine.performOrder
  split
  · exact h.refuse _ _ _
  · split
    · exact h
    · rename_i r hr
      dsimp only
      split
      · exact h.reply _ _ _
      · rename_i hne
        refine Keeps.reply (Keeps.writeRecord (h.commitOrder (.none s) fun _ => rfl) fun hok k => ?_) _ _ _
        exact commitOrder_record_fits rfl rfl hne ((h.records hok k).cache i r hr).2

theorem Keeps.performNewOrder (h : Keeps ok a s) (i : SlotId) (p : Port) (rush : Bool) (lines : List OrderLine) :
    Keeps ok a (performNewOrder i p rush lines s) := by
  have h1 := h.clearSlot i
  unfold Machine.performNewOrder
  split
  · exact h1.refuse _ _ _
  · rename_i g _
    dsimp only
    split
    · exact h1.reply _ _ _
    · rename_i hne
      split
      · exact h1.refuse _ _ _
      · rename_i tab rest _
        refine Keeps.reply (Keeps.setSlot ((h.openTab i tab rest g).commitOrder (judged := s) ⟨fun _ => rfl, rfl⟩ fun _ => rfl)
          (fun _ => Nat.zero_le _) fun _ _ r e => ?_) _ _ _
        cases e
        exact commitOrder_record_fits (r := newRecord tab g p) rfl rfl hne nofun

/-- Lines that are no longer ACTIVE charge nothing (R113). -/
theorem chargesOf_setLine (lines : List TabLine) (n : Nat) {state : LineState} (hs : state ≠ .active) (ticket : Option Nat) :
    chargesOf (setLine lines n state ticket) = chargesOf (lines.filter (fun l => l.number ≠ n)) := by
  induction lines with
  | nil => rfl
  | cons l lines ih =>
    simp only [chargesOf, setLine] at ih ⊢
    by_cases hn : l.number = n
    · simp [hn, lineCharge, hs, ih]
    · simp [hn, List.filterMap_cons, ih]

theorem voidFate_live {s : State} {tab : Nat} {l : TabLine} {t : Ticket} (h : s.voidFate tab l = .strike t) :
    t ∈ s.liveTickets := by
  unfold State.voidFate at h
  split at h
  · cases h
  · rename_i n _
    split at h
    · cases h
    · rename_i u hu
      split at h
      · cases h
      · cases h
        unfold State.findLineTicket at hu
        exact List.mem_of_find?_eq_some hu

theorem Keeps.kitchenVoid (h : Keeps ok a s) (tab : Nat) (l : TabLine) (n : Nat) :
    Keeps ok a (s.kitchenVoid n (s.voidFate tab l)) := by
  cases hf : s.voidFate tab l with
  | strike t => exact h.strikeLine (voidFate_live hf) n
  | void => exact h
  | waste => exact h

/-- Stock goes back only to an item that has sold that many (R59). -/
theorem Keeps.returnStock (h : Keeps ok a s) {before : State} {item quantity : Nat} (hs : s.item item = before.item item)
    (hret : before.returnsStock item quantity = true) :
    Keeps ok a (s.mapTracking item (Machine.returnStock quantity)) := by
  refine h.mapTracking fun hb i t hi ht => ?_
  obtain ⟨hsum, hlevel⟩ := balanced_of_item hb hi ht
  have hsold : quantity ≤ t.sold := by
    simpa [State.returnsStock, ← hs, hi, ht] using hret
  exact ⟨show t.stock + quantity + (t.sold - quantity) = t.level by omega, hlevel⟩

theorem offerWithdraw_items (s : State) (t : Ticket) : (s.offerWithdraw t).items = s.items := by
  unfold State.offerWithdraw
  split
  · split <;> rfl
  · rfl

theorem removeTicket_items (s : State) (t : Ticket) : (s.removeTicket t).items = s.items := by
  unfold State.removeTicket
  split
  · rw [offerWithdraw_items]; simp [State.lowerLive]
  · rw [offerWithdraw_items, (TicketsKept.promote _).frame, removeFromQueue_eq]; simp

theorem kitchenVoid_items (s : State) (n : Nat) (fate : VoidFate) : (s.kitchenVoid n fate).items = s.items := by
  cases fate with
  | strike t =>
    unfold State.kitchenVoid
    rcases strikeLine_cases s t n with ⟨-, e⟩ | ⟨-, -, e⟩ | ⟨-, -, e⟩
    · simp only [e, removeTicket_items]
    · simp only [e]
    · simp only [e, leaveSent_eq, State.mapTicket]; split <;> rfl
  | void => rfl
  | waste => rfl

theorem item_of_items {s t : State} (h : t.items = s.items) (c : Nat) : t.item c = s.item c := by
  simp only [State.item, h]

theorem Keeps.voidLine (h : Keeps ok a s) {i : SlotId} (p : Port) {r : TabRecord} (hr : (s.slot i).record = some r)
    (l : TabLine) (htotal : (s.totalsWithout r l.number).total ≤ Config.totalLimit) :
    Keeps ok a (Machine.voidLine i p r l s) := by
  have h1 := h.kitchenVoid r.tab l l.number
  have hitem := item_of_items (kitchenVoid_items s l.number (s.voidFate r.tab l)) l.item
  have h2 : Keeps ok a (if ((s.voidFate r.tab l).isVoid && s.returnsStock l.item l.quantity) = true then
      (s.kitchenVoid l.number (s.voidFate r.tab l)).mapTracking l.item (Machine.returnStock l.quantity)
      else s.kitchenVoid l.number (s.voidFate r.tab l)) := by
    split
    · rename_i hret; exact h1.returnStock hitem (Bool.and_eq_true_iff.1 hret).2
    · exact h1
  refine Keeps.reply (Keeps.writeRecord (h2.latchItems s [l.item]) fun hok k => ?_) _ _ _
  refine ⟨?_, ((h.records hok k).cache i r hr).2⟩
  change (totalsOf _ _ (chargesOf (setLine _ _ _ _))).total ≤ _
  rw [chargesOf_setLine]
  · exact htotal
  · split <;> exact LineState.noConfusion

theorem Keeps.performVoid (h : Keeps ok a s) (i : SlotId) (p : Port) (tab line : Nat) :
    Keeps ok a (performVoid i p tab line s) := by
  unfold Machine.performVoid
  split
  · exact h.refuse _ _ _
  · split
    · exact h
    · rename_i r hr
      split
      · exact h.refuse _ _ _
      · rename_i l hl
        have hnumber : l.number = line := by
          have := List.find?_some hl
          simp only [Bool.and_eq_true, decide_eq_true_eq] at this
          exact this.1
        split
        · exact h.refuse _ _ _
        · rename_i hlimit; exact h.voidLine p hr l (hnumber ▸ not_lt.1 hlimit)

/-! ### SPLIT, CANCEL SPLIT, TENDER and RESUME -/

/-- A plan that the split engine makes has credited nothing yet (R121). -/
theorem makePlan_credited {spec : SplitSpec} {r : TabRecord} {plan : SplitPlan} (h : makePlan spec r = .plan plan) :
    ∀ x ∈ plan.shares, x.credited = 0 := by
  unfold makePlan at h
  have hmap : ∀ {α : Type} (l : List α) (due : α → Nat) (components : α → Option Amounts),
      ∀ x ∈ l.map (fun y => newShare (due y) (components y)), x.credited = 0 := by
    intro α l due components x hx
    obtain ⟨y, -, rfl⟩ := List.mem_map.1 hx
    rfl
  split at h
  · cases h; exact hmap _ _ _
  · split at h
    · cases h
    · split at h
      · cases h
      · cases h; exact hmap _ _ _
  · split at h
    · cases h
    · cases h; exact hmap _ _ _

/-- A record with a fresh plan is in range. -/
theorem recordFits_withPlan {r : TabRecord} (h : RecordFits r) {spec : SplitSpec} {plan : SplitPlan}
    (hplan : makePlan spec r = .plan plan) : RecordFits { r with plan := some plan } := by
  refine ⟨h.1, fun q e x hx => ?_⟩
  cases e
  rw [makePlan_credited hplan x hx]
  exact Nat.zero_le _

theorem Keeps.writeNewSplit (h : Keeps ok a s) {i : SlotId} (p : Port) (tab : Nat) {r : TabRecord}
    (hr : (s.slot i).record = some r) {spec : SplitSpec} {plan : SplitPlan} (hplan : makePlan spec r = .plan plan) :
    Keeps ok a (Machine.writeNewSplit i p tab r plan s) := by
  have h1 := (h.rewriteRecord hr fun hf => recordFits_withPlan hf hplan).takeHold p tab
  unfold Machine.writeNewSplit
  dsimp only
  split
  · exact ((h1.setDir _ _).closeTab _).reply _ _ _
  · exact (h1.setDir _ _).reply _ _ _

theorem Keeps.replaceSplit (h : Keeps ok a s) {i : SlotId} (p : Port) (tab : Nat) {r : TabRecord}
    (hr : (s.slot i).record = some r) {spec : SplitSpec} {plan : SplitPlan} (hplan : makePlan spec r = .plan plan) :
    Keeps ok a (Machine.replaceSplit i p tab r plan s) :=
  ((h.rewriteRecord hr fun hf => recordFits_withPlan hf hplan).restartHold p).reply _ _ _

theorem Keeps.performSplit (h : Keeps ok a s) (i : SlotId) (p : Port) (tab : Nat) (spec : SplitSpec) :
    Keeps ok a (performSplit i p tab spec s) := by
  unfold Machine.performSplit
  split
  · exact h.refuse _ _ _
  · split
    · exact h
    · rename_i r hr
      split
      · split
        · exact (h.restartHold p).refuse _ _ _
        · split
          · exact (h.restartHold p).refuse _ _ _
          · rename_i plan hplan; exact h.replaceSplit p tab hr hplan
      · split
        · exact h.refuse _ _ _
        · rename_i plan hplan; exact h.writeNewSplit p tab hr hplan

theorem Keeps.performCancelSplit (h : Keeps ok a s) (i : SlotId) (p : Port) (tab : Nat) :
    Keeps ok a (performCancelSplit i p tab s) := by
  unfold Machine.performCancelSplit
  split
  · exact h.refuse _ _ _
  · split
    · exact h.refuse _ _ _
    · split
      · exact h
      · rename_i r hr
        exact (((h.rewriteRecord hr recordFits_withoutPlan).endHold tab).setDir _ _).reply _ _ _

theorem judgeTender_passes {f : TenderFields} {r : TabRecord} {plan : SplitPlan} {x : Share}
    (h : judgeTender f r plan = .passes x) : plan.shares[f.share - 1]? = some x := by
  unfold judgeTender at h
  split at h
  · cases h
  · rename_i y hy
    split at h
    · cases h
    · split at h
      · cases h
      · split at h
        · cases h
        · cases h; exact hy

/-- A tender credits no more than is outstanding (R131, R134). -/
theorem creditOf_le (m : Method) (amount outstanding : Nat) : creditOf m amount outstanding ≤ outstanding := by
  cases m with
  | card => exact le_rfl
  | cash => exact min_le_right _ _
  | voucher => exact min_le_right _ _

theorem tenderedRecord_fits {f : TenderFields} {r : TabRecord} {plan : SplitPlan} {x : Share} (h : RecordFits r)
    (hplan : r.plan = some plan) (hx : x ∈ plan.shares) : RecordFits (tenderedRecord f r plan x) := by
  refine ⟨h.1, fun q e y hy => ?_⟩
  cases e
  rcases List.mem_or_eq_of_mem_set hy with hy | rfl
  · exact h.2 plan hplan y hy
  · have hcredited := h.2 plan hplan x hx
    have hcredit := creditOf_le f.method f.amount (shareOutstanding x)
    unfold shareOutstanding at hcredit
    exact show x.credited + creditOf f.method f.amount (x.due - x.credited) ≤ x.due by omega

theorem Keeps.recordTender (h : Keeps ok a s) {i : SlotId} (p : Port) {f : TenderFields} {r : TabRecord}
    (hr : (s.slot i).record = some r) {plan : SplitPlan} (hplan : r.plan = some plan) {x : Share} (hx : x ∈ plan.shares) :
    Keeps ok a (Machine.recordTender i p f r plan x s) := by
  have h1 := h.rewriteRecord hr fun hf => tenderedRecord_fits (f := f) hf hplan hx
  unfold Machine.recordTender
  dsimp only
  refine Keeps.reply ?_ _ _ _
  split
  · exact (h1.setDir _ _).closeTab _
  · exact h1.setDir _ _

theorem restartHold_slot (s : State) (p : Port) (i : SlotId) : (s.restartHold p).slot i = s.slot i := by
  unfold State.restartHold; split <;> rfl

theorem Keeps.performTender (h : Keeps ok a s) (i : SlotId) (p : Port) (f : TenderFields) :
    Keeps ok a (performTender i p f s) := by
  have h1 := h.restartHold p
  unfold Machine.performTender
  split
  · exact h.refuse _ _ _
  · dsimp only
    split
    · exact h1
    · rename_i r hr
      split
      · exact h1
      · rename_i plan hplan
        split
        · exact h1.refuse _ _ _
        · rename_i x hx
          exact h1.recordTender p (by rw [restartHold_slot]; exact hr) hplan (List.mem_of_getElem? (judgeTender_passes hx))

theorem Keeps.performResume (h : Keeps ok a s) (i : SlotId) (p : Port) (tab : Nat) :
    Keeps ok a (performResume i p tab s) := by
  unfold Machine.performResume
  split
  · exact h.refuse _ _ _
  · split
    · exact h
    · refine Keeps.reply ?_ _ _ _
      split
      · exact h.takeHold _ _
      · exact h.restartHold _

/-! ### READ TAB, COLLECT and DISCARD TAB -/

theorem Keeps.performReadTab (h : Keeps ok a s) (i : SlotId) (p : Port) (tab page : Nat) :
    Keeps ok a (performReadTab i p tab page s) := by
  unfold Machine.performReadTab
  split
  · exact h.refuse _ _ _
  · split
    · exact h
    · exact h.reply _ _ _

theorem Keeps.refuseWaiter (h : Keeps ok a s) (status : Status) (w : Waiter) : Keeps ok a (s.refuseWaiter status w) :=
  h.refuse _ _ _

theorem Keeps.refuseAll (h : Keeps ok a s) (status : Status) (ws : List Waiter) :
    Keeps ok a (ws.foldl (State.refuseWaiter status) s) :=
  h.foldl fun u w _ => (Keeps.refl u).refuseWaiter status w

theorem Keeps.emptySlot (h : Keeps ok a s) (i : SlotId) (status : Status) : Keeps ok a (s.emptySlot i status) :=
  (h.refuseAll status _).clearSlot i

theorem Keeps.freeAtSlot (h : Keeps ok a s) (i : SlotId) (tab : Nat) : Keeps ok a (s.freeAtSlot i tab) :=
  (h.freeTab tab).emptySlot i _

theorem Keeps.discardOpen (h : Keeps ok a s) (i : SlotId) (p : Port) (tab : Nat) : Keeps ok a (discardOpen i p tab s) := by
  unfold Machine.discardOpen
  split
  · exact h
  · split
    · exact h.refuse _ _ _
    · split
      · exact h.refuse _ _ _
      · exact (h.reply _ _ _).freeAtSlot i tab

theorem Keeps.discardDamaged (h : Keeps ok a s) (p : Port) (tab : Nat) : Keeps ok a (discardDamaged p tab s) := by
  unfold Machine.discardDamaged
  split
  · exact h.refuse _ _ _
  · exact (h.freeTab tab).reply _ _ _

theorem Keeps.performDiscard (h : Keeps ok a s) (i : SlotId) (p : Port) (tab : Nat) :
    Keeps ok a (performDiscard i p tab s) := by
  unfold Machine.performDiscard
  split
  · exact h.refuse _ _ _
  · exact h.refuse _ _ _
  · exact h.refuse _ _ _
  · exact h.discardDamaged p tab
  · exact h.discardOpen i p tab

theorem Keeps.performCollect (h : Keeps ok a s) (i : SlotId) (p : Port) (tab : Nat) :
    Keeps ok a (performCollect i p tab s) := by
  unfold Machine.performCollect
  split
  · split
    · exact h.refuse _ _ _
    · split
      · exact h
      · exact (h.reply _ _ _).freeAtSlot i tab
  · exact h.refuse _ _ _
  · exact h.refuse _ _ _
  · exact h.refuse _ _ _

/-- Every request that executes at a slot keeps the invariants. -/
theorem Keeps.perform (h : Keeps ok a s) (i : SlotId) (p : Port) (request : TabRequest) :
    Keeps ok a (perform i p request s) := by
  cases request with
  | order tab rush lines =>
    unfold Machine.perform
    dsimp only
    split
    · exact h.performNewOrder i p rush lines
    · exact h.performOrder i p tab rush lines
  | void tab line => exact h.performVoid i p tab line
  | readTab tab page => exact h.performReadTab i p tab page
  | split tab spec => exact h.performSplit i p tab spec
  | cancelSplit tab => exact h.performCancelSplit i p tab
  | tender tab share method amount => exact h.performTender i p _
  | resume tab => exact h.performResume i p tab
  | collect tab => exact h.performCollect i p tab
  | discardTab tab => exact h.performDiscard i p tab

end Sys2Proof.Invariants
end

section
/-! PROOFS. What the cache, the memory controller, port resets, the office unit and the requests of every kind keep; and so every command
(O2, O4 to O8). -/

namespace Sys2Proof.Invariants

-- One theorem after another: as many checks at once take a thread each.
set_option Elab.async false

open Sys2Proof Sys2Proof.Machine Sys2Proof.Statements

variable {ok : Prop} {a s t : State}

/-! ### The cache -/

theorem Keeps.runHead (h : Keeps ok a s) (i : SlotId) (w : Waiter) : Keeps ok a (s.runHead i w) :=
  ((h.popWaiter i).touch i).perform i w.port w.request

theorem Keeps.turnAway (h : Keeps ok a s) (i : SlotId) (w : Waiter) (status : Status) : Keeps ok a (s.turnAway i w status) :=
  (h.popWaiter i).refuseWaiter status w

theorem Keeps.splitGate (h : Keeps ok a s) (i : SlotId) (w : Waiter) : Keeps ok a (s.splitGate i w) := by
  unfold State.splitGate
  split
  · exact h.runHead i w
  · exact h.turnAway i w _
  · rename_i hc
    refine h.trans { lists := fun k => ⟨k.notices, k.availList, k.waits, ?_, fun _ => ⟨_, rfl⟩, k.recency⟩ }
    have hnone : s.engineWait = [] := by
      by_contra hne
      obtain ⟨cause, e⟩ := k.running hne
      rw [hc] at e
      cases e
    simp [hnone]
  · rename_i cause hc
    split
    · rename_i hlen
      exact h.trans
        { lists := fun k => ⟨k.notices, k.availList, k.waits, by simpa using hlen, fun _ => ⟨cause, hc⟩, k.recency⟩ }
    · exact h.turnAway i w _

theorem Keeps.executeHead (h : Keeps ok a s) (i : SlotId) : Keeps ok a (s.executeHead i) := by
  unfold State.executeHead
  split
  · exact h
  · split
    · exact h
    · split
      · exact h
      · split
        · exact h.splitGate i _
        · exact h.runHead i _

theorem Keeps.startFetch (h : Keeps ok a s) (i : SlotId) (tab : Nat) {waits : List Waiter}
    (hw : (s.slot i).waits.length ≤ 4 → waits.length ≤ 4) : Keeps ok a (s.startFetch i tab waits) :=
  (h.setSlot hw fun _ _ _ e => by cases e).enqueueOp _

theorem Keeps.startWrite (h : Keeps ok a s) (i : SlotId) (incoming : Incoming) {waits : List Waiter}
    (hw : (s.slot i).waits.length ≤ 4 → waits.length ≤ 4) : Keeps ok a (s.startWrite i incoming waits) :=
  (h.setSlot_same (i := i) (x := { s.slot i with state := .writing, incoming := incoming, waits := waits }) hw rfl).enqueueOp _

theorem one_le_four {α : Type} (w : α) : [w].length ≤ 4 := by rw [List.length_singleton]; decide

/-- Another wait list that is not too long. -/
theorem Keeps.setWaits (h : Keeps ok a s) (i : SlotId) {ws : List Waiter} (hw : ws.length ≤ 4) :
    Keeps ok a (s.setSlot i { s.slot i with waits := ws }) :=
  h.setSlot_same (i := i) (x := { s.slot i with waits := ws }) (fun _ => hw) rfl

theorem Keeps.claim (h : Keeps ok a s) (i : SlotId) (tab : Nat) (w : Waiter) : Keeps ok a (s.claim i tab w) := by
  unfold State.claim
  split
  · exact (h.startWrite i _ fun _ => one_le_four w).setCached _ _
  · exact ((h.uncache i).setCached _ _).startFetch i tab fun _ => one_le_four w

theorem Keeps.joinWaits (h : Keeps ok a s) (i : SlotId) (w : Waiter) : Keeps ok a (s.joinWaits i w) := by
  unfold State.joinWaits
  split
  · rename_i hlen; exact h.setWaits i (by simpa using hlen)
  · exact h.refuseWaiter _ _

theorem Keeps.atOwnSlot (h : Keeps ok a s) (i : SlotId) (w : Waiter) : Keeps ok a (s.atOwnSlot i w) := by
  unfold State.atOwnSlot
  split
  · split
    · exact (h.setWaits i (one_le_four w)).executeHead i
    · exact h.joinWaits i w
  · exact h.joinWaits i w
  · split
    · exact h.joinWaits i w
    · exact h.refuseWaiter _ _
  · exact h.refuseWaiter _ _

theorem Keeps.cacheRequest (h : Keeps ok a s) (tab : Nat) (w : Waiter) : Keeps ok a (s.cacheRequest tab w) := by
  unfold State.cacheRequest
  split
  · split
    · exact h.atOwnSlot _ w
    · split
      · exact h.joinWaits _ w
      · exact h.refuseWaiter _ _
  · split
    · exact h.refuseWaiter _ _
    · exact h.claim _ tab w

theorem Keeps.runNewOrder (h : Keeps ok a s) (i : SlotId) (w : Waiter) : Keeps ok a (s.runNewOrder i w) :=
  ((h.clearSlot i).touch i).perform i w.port w.request

theorem Keeps.cacheNewOrder (h : Keeps ok a s) (w : Waiter) : Keeps ok a (s.cacheNewOrder w) := by
  unfold State.cacheNewOrder
  split
  · exact h.refuseWaiter _ _
  · split
    · exact h.refuseWaiter _ _
    · split
      · exact h.startWrite _ _ fun _ => one_le_four w
      · exact (h.uncache _).runNewOrder _ w

theorem Keeps.toCache (h : Keeps ok a s) (p : Port) (tab : Nat) (request : TabRequest) :
    Keeps ok a (s.toCache p tab request) := by
  unfold State.toCache
  split
  · exact h.refuse _ _ _
  · exact h.cacheRequest _ _

/-! ### The memory controller -/

theorem Keeps.comparePlan (h : Keeps ok a s) (i : SlotId) : Keeps ok a (s.comparePlan i) := by
  unfold State.comparePlan
  split
  · exact h
  · split
    · exact h.dropPlan i
    · exact h

theorem Keeps.becomeReady (h : Keeps ok a s) (i : SlotId) : Keeps ok a (s.becomeReady i) :=
  ((h.setSlot_same (i := i) (x := { s.slot i with state := .ready, incoming := .none }) id rfl).comparePlan i).executeHead i

theorem Keeps.flushReply (h : Keeps ok a s) (f : Flush) : Keeps ok a (s.flushReply f) := by
  unfold State.flushReply
  split
  · exact h.reply _ _ _
  · exact h.refuse _ _ _

theorem Keeps.countFlush (h : Keeps ok a s) (i : SlotId) (fault : Option Nat) : Keeps ok a (s.countFlush i fault) := by
  unfold State.countFlush
  split
  · exact h
  · split
    · dsimp only
      split
      · exact Keeps.flushReply (h.trans {}) _
      · exact h.trans {}
    · exact h

theorem Keeps.startOperation (h : Keeps ok a s) : Keeps ok a s.startOperation := by
  unfold State.startOperation
  split
  · exact h
  · exact h.trans {}
  · exact h.trans {}
  · exact h

/-- A record that a read passes is what the memory port brings or what tab memory holds. -/
theorem passes_source {s : State} {tab : Nat} {read : MemRead} {r : TabRecord}
    (h : passes tab (s.readMemory tab read) = some r) :
    (∃ cell, read = .delivers cell ∧ cell.record = r) ∨ ∃ e ∈ s.tabMemory, e.2.record = r := by
  obtain ⟨cell, hcell, e⟩ : ∃ cell, s.readMemory tab read = some cell ∧ cell.record = r := by
    cases hm : s.readMemory tab read with
    | none => rw [hm] at h; cases h
    | some cell =>
      rw [hm, passes] at h
      split at h
      · exact ⟨cell, rfl, Option.some.inj h⟩
      · cases h
  cases read with
  | asWritten => exact .inr ⟨_, mem_of_tableFind hcell, e⟩
  | delivers c => cases hcell; exact .inl ⟨_, rfl, e⟩

theorem Keeps.finishFetch (h : Keeps ok a s) (i : SlotId) (tab : Nat) {read : MemRead}
    (hok : ok → ∀ cell, read = .delivers cell → RecordFits cell.record) : Keeps ok a (s.finishFetch i tab read) := by
  unfold State.finishFetch
  split
  · rename_i r hr
    have hrecord : ok → RecordsFit a → RecordFits r := fun ho k => by
      rcases passes_source hr with ⟨cell, hc, rfl⟩ | ⟨e, he, rfl⟩
      · exact hok ho cell hc
      · exact (h.records ho k).memory e he
    have h1 : Keeps ok a (s.setSlot i { s.slot i with record := some r, dirty := false }) := by
      refine h.setSlot id fun ho k x e => ?_
      cases e
      exact hrecord ho k
    exact h1.becomeReady i
  · exact ((h.damageTab tab).emptySlot i _).raise _

theorem Keeps.abandonFetch (h : Keeps ok a s) (i : SlotId) (tab : Nat) : Keeps ok a (s.abandonFetch i tab) :=
  ((h.setCached tab none).emptySlot i _).raise _

theorem Keeps.recordWritten (h : Keeps ok a s) (i : SlotId) : Keeps ok a (s.recordWritten i) := by
  unfold State.recordWritten
  split
  · rename_i tab r _ hr
    have h1 : Keeps ok a (s.store tab (withCheck r)) := h.store fun hok k => (h.records hok k).cache i r hr
    exact h1.setSlot_same (i := i) (x := { s.slot i with dirty := false }) id rfl
  · exact h.setSlot_same (i := i) (x := { s.slot i with dirty := false }) id rfl

theorem recordWritten_waits (s : State) (i : SlotId) : ((s.recordWritten i).slot i).waits = (s.slot i).waits := by
  unfold State.recordWritten; split <;> rw [State.slot_setSlot_self]

theorem uncache_slot (s : State) (i j : SlotId) : (s.uncache i).slot j = s.slot j := by
  simp only [State.slot, State.uncache_slots]

theorem Keeps.openForNew (h : Keeps ok a s) (i : SlotId) : Keeps ok a (s.openForNew i) := by
  unfold State.openForNew
  split
  · exact h.clearSlot i
  · exact h.runNewOrder i _

theorem Keeps.finishWrite (h : Keeps ok a s) (i : SlotId) : Keeps ok a (s.finishWrite i) := by
  have h1 := h.recordWritten i
  unfold State.finishWrite
  dsimp only
  split
  · exact (h1.becomeReady i).countFlush i none
  · exact (h1.uncache i).startFetch i _ fun hw => by rwa [uncache_slot, recordWritten_waits] at hw
  · exact (h1.uncache i).openForNew i

theorem Keeps.leaveMemory (h : Keeps ok a s) (i : SlotId) {left : Option StoredRecord}
    (hok : ok → ∀ cell, left = some cell → RecordFits cell.record) : Keeps ok a (s.leaveMemory i left) := by
  unfold State.leaveMemory
  split
  · exact h.store fun ho _ => hok ho _ rfl
  · exact h

theorem Keeps.abandonWrite (h : Keeps ok a s) (i : SlotId) {left : Option StoredRecord}
    (hok : ok → ∀ cell, left = some cell → RecordFits cell.record) : Keeps ok a (s.abandonWrite i left) := by
  have h1 := (h.leaveMemory i hok).raise (.tab (orZero (s.slot i).tab) .writeAbandoned)
  unfold State.abandonWrite
  dsimp only
  split
  · exact (h1.becomeReady i).countFlush i _
  · exact (((h1.setCached _ none).refuseAll _ _).setWaits i (Nat.zero_le _)).becomeReady i
  · exact ((h1.refuseAll _ _).setWaits i (Nat.zero_le _)).becomeReady i

theorem Keeps.walkAudit (h : Keeps ok a s) (x : Audit) (next : Nat) : Keeps ok a (s.walkAudit x next) := by
  unfold State.walkAudit
  dsimp only
  split
  · exact h.trans {}
  · exact Keeps.raise (h.trans {}) _

theorem Keeps.endAuditRead (h : Keeps ok a s) (tab : Nat) (outcome : Option Bool) :
    Keeps ok a (s.endAuditRead tab outcome) := by
  unfold State.endAuditRead
  split
  · exact h
  · split
    · exact h.walkAudit _ _
    · split
      · exact h.walkAudit _ _
      · exact h.walkAudit _ _
      · split
        · exact ((h.damageTab tab).raise _).walkAudit _ _
        · exact h.walkAudit _ _

/-! ### Port resets -/

theorem Keeps.dropRequest (h : Keeps ok a s) (p : Port) : Keeps ok a (s.dropRequest p) := by
  have hslot : ∀ i, (s.dropRequest p).slot i = dropWaiter p (s.slot i) := fun i => by
    simp [State.dropRequest, State.slot]
  refine h.trans
    { lists := fun k => ⟨k.notices, k.availList, fun i => ?_, (List.length_filter_le _ _).trans k.engine, fun hne => ?_, k.recency⟩
      records := fun _ k => ⟨fun i r hr => k.cache i r (by rw [hslot] at hr; exact hr), k.memory⟩ }
  · rw [hslot]; exact (List.length_filter_le _ _).trans (k.waits i)
  · exact k.running fun e => hne (by simp [State.dropRequest, e])

theorem Keeps.resetPort (h : Keeps ok a s) (p : Port) : Keeps ok a (s.resetPort p) := by
  have h1 := (h.dropRequest p).setPort (p := p) (x := LanePort.fresh) fun _ => Nat.zero_le _
  unfold State.resetPort
  dsimp only
  split
  · exact (h1.releaseHold p _).kitchenReset p
  · exact h1.kitchenReset p

theorem Keeps.loadPort (h : Keeps ok a s) (e : Port × PortRole) : Keeps ok a (s.loadPort e) := by
  unfold State.loadPort
  split
  · exact h
  · split
    · exact (h.releaseHold _ _).setRole _ _
    · exact (h.resetPort _).setRole _ _

/-! ### The office unit -/

theorem Keeps.sendNotice (h : Keeps ok a s) : Keeps ok a s.sendNotice := by
  unfold State.sendNotice
  split
  · exact h
  · rename_i n rest hn
    split
    · rename_i hroom
      refine (h.sendOwn (body := noticeBody s.dropped n) (kind := .notice) (source := .own) hroom).trans
        { lists := fun k => ⟨?_, k.availList, k.waits, k.engine, k.running, k.recency⟩ }
      have := k.notices
      simp only [State.sendOwn_notices, hn, List.length_cons] at this
      exact Nat.le_of_succ_le this
    · exact h

theorem Keeps.releaseSplit (h : Keeps ok a s) (p : Port) : Keeps ok a (s.releaseSplit p) := by
  unfold State.releaseSplit
  split
  · exact h
  · exact h.executeHead _

theorem Keeps.failSplit (h : Keeps ok a s) (p : Port) : Keeps ok a (s.failSplit p) := by
  unfold State.failSplit
  split
  · exact h
  · split
    · exact h
    · exact h.turnAway _ _ _

theorem Keeps.endCheck (h : Keeps ok a s) (passed : Bool) : Keeps ok a (s.endCheck passed) := by
  unfold State.endCheck
  split
  · dsimp only
    refine Keeps.foldl (Keeps.raise (h.trans ?_) _) fun u p _ => ?_
    · exact { lists := fun k => ⟨k.notices, k.availList, k.waits, Nat.zero_le _, fun hne => absurd rfl hne, k.recency⟩ }
    · cases passed
      · exact (Keeps.refl u).failSplit p
      · exact (Keeps.refl u).releaseSplit p
  · exact h

theorem Keeps.endSave (h : Keeps ok a s) (done : Bool) : Keeps ok a (s.endSave done) := Keeps.raise (h.trans {}) _

theorem Keeps.eraseDone (h : Keeps ok a s) : Keeps ok a s.eraseDone := by
  unfold State.eraseDone
  split
  · split
    · exact h.trans {}
    · exact h
  · exact h

theorem Keeps.nodeRead (h : Keeps ok a s) (k : Nat) (readBack : Option (List Byte)) : Keeps ok a (s.nodeRead k readBack) := by
  unfold State.nodeRead
  split
  · exact h
  · dsimp only
    split
    · exact Keeps.endSave (h.trans {}) _
    · split
      · exact h.trans {}
      · exact Keeps.endSave (h.trans {}) _

theorem Keeps.nodeVerified (h : Keeps ok a s) (readBack : Option (List Byte)) : Keeps ok a (s.nodeVerified readBack) := by
  unfold State.nodeVerified
  split
  · split
    · exact h.nodeRead _ _
    · exact h
  · exact h

theorem Keeps.failSave (h : Keeps ok a s) (left : List Byte) : Keeps ok a (s.failSave left) := by
  unfold State.failSave
  split
  · exact h
  · exact Keeps.endSave (h.trans {}) _

theorem Keeps.timeOutSave (h : Keeps ok a s) (left : List Byte) : Keeps ok a (s.timeOutSave left) := by
  unfold State.timeOutSave
  split
  · exact h
  · exact (h.reach _).failSave left

theorem Keeps.imagePeriod (h : Keeps ok a s) : Keeps ok a s.imagePeriod := by
  unfold State.imagePeriod
  split
  · exact h
  · exact ((h.reach _).mapStations (f := Station.imagePeriod) fun _ => ⟨rfl, rfl, rfl, rfl⟩).trans {}

/-! ### Loads -/

/-- What `mapM` reads comes from entries that it read. -/
theorem mem_of_mapM {α β : Type} {f : α → Option β} {l : List α} {ys : List β} (h : l.mapM f = some ys) {y : β} (hy : y ∈ ys) :
    ∃ x ∈ l, f x = some y := by
  induction l generalizing ys with
  | nil => simp only [List.mapM_nil, Option.pure_def, Option.some.injEq] at h; subst h; cases hy
  | cons x l ih =>
    simp only [List.mapM_cons, Option.pure_def, Option.bind_eq_bind, Option.bind_eq_some_iff, Option.some.injEq] at h
    obtain ⟨z, hz, zs, hzs, rfl⟩ := h
    rcases List.mem_cons.1 hy with rfl | hy
    · exact ⟨x, List.mem_cons_self, hz⟩
    · obtain ⟨w, hw, e⟩ := ih hzs hy
      exact ⟨w, List.mem_cons_of_mem _ hw, e⟩

/-- A window that is loaded is 1 to 4 (R166). -/
theorem readStationEntry_window {bytes : List Byte} {e : Port × StationEntry} (h : readStationEntry bytes = some e) :
    1 ≤ e.2.window ∧ e.2.window ≤ 4 := by
  unfold readStationEntry at h
  split at h
  · split at h
    · split at h
      · cases h
        simp only [clampWindow]
        omega
      · cases h
    · cases h
  · cases h

theorem readLoadStations_windows {body : List Byte} {entries : List (Port × StationEntry)}
    (h : readLoadStations body = some entries) : ∀ e ∈ entries, 1 ≤ e.2.window ∧ e.2.window ≤ 4 := by
  intro e he
  unfold readLoadStations at h
  split at h
  · split at h
    · obtain ⟨x, -, hx⟩ := mem_of_mapM h he
      exact readStationEntry_window hx
    · cases h
  · cases h

theorem loadStation_frame (s : State) (e : Port × StationEntry) :
    s.loadStation e = { s with stations := (s.loadStation e).stations, overflow := (s.loadStation e).overflow } := by
  have h := (TicketsKept.fitWindow (s.setStation e.1 (loadedStation (s.station e.1) e.2)) e.1).frame
  rw [← loadStation_eq] at h
  exact h

theorem Keeps.loadStations (h : Keeps ok a s) {entries : List (Port × StationEntry)}
    (hw : ∀ e ∈ entries, 1 ≤ e.2.window ∧ e.2.window ≤ 4) : Keeps ok a (entries.foldl State.loadStation s) := by
  refine h.foldl fun u e he => ?_
  have hfits : KitchenFits u → KitchenFits (u.loadStation e) := fun k => loadStation_fits k (hw e he)
  rw [loadStation_frame] at hfits ⊢
  exact { kitchen := hfits }

/-- An item entry that is loaded has all its level in stock (R46). -/
theorem readItemEntry_balanced {bytes : List Byte} {e : Nat × Option Item} (h : readItemEntry bytes = some e) :
    ∀ i, e.2 = some i → ∀ t, i.tracking = some t → t.balanced := by
  intro i hi t ht
  unfold readItemEntry at h
  split at h
  · split at h
    · split at h
      · obtain ⟨j, hj, rfl⟩ := Option.map_eq_some_iff.1 h
        cases hi
        unfold readItemFields at hj
        split at hj
        · split at hj
          · rename_i st tr _ htr
            cases hj
            cases ht
            unfold readTracking at htr
            split at htr
            · split at htr
              · rename_i hle; cases htr; exact ⟨rfl, hle.1⟩
              · cases htr
            · cases htr
          · cases hj
        · cases hj
      · cases h; cases hi
    · cases h
  · cases h

theorem readItemList_balanced {most : Nat} {body : List Byte} {entries : List (Nat × Option Item)}
    (h : readItemList most body = some entries) :
    ∀ e ∈ entries, ∀ i, e.2 = some i → ∀ t, i.tracking = some t → t.balanced := by
  intro e he
  unfold readItemList at h
  split at h
  · split at h
    · obtain ⟨x, -, hx⟩ := mem_of_mapM h he
      exact readItemEntry_balanced hx
    · cases h
  · cases h

theorem Keeps.loadItems (h : Keeps ok a s) {entries : List (Nat × Option Item)}
    (hb : ∀ e ∈ entries, ∀ i, e.2 = some i → ∀ t, i.tracking = some t → t.balanced) : Keeps ok a (s.loadItems entries) :=
  h.foldl fun u e he => (Keeps.refl u).setItem fun _ => hb e he

/-! ### Start-up and part reset -/

theorem readNodeBody_loads {id : Nat} {body : List Byte} {load : NodeLoad} (h : readNodeBody id body = some load) :
    (∀ entries, load = .stations entries → ∀ e ∈ entries, 1 ≤ e.2.window ∧ e.2.window ≤ 4) ∧
    (∀ entries, load = .items entries → ∀ e ∈ entries, ∀ i, e.2 = some i → ∀ t, i.tracking = some t → t.balanced) := by
  unfold readNodeBody at h
  split at h
  · obtain ⟨es, -, e⟩ := Option.bind_eq_some_iff.1 h
    split at e <;> cases e
    exact ⟨nofun, nofun⟩
  · obtain ⟨es, -, rfl⟩ := Option.map_eq_some_iff.1 h; exact ⟨nofun, nofun⟩
  · obtain ⟨es, -, rfl⟩ := Option.map_eq_some_iff.1 h; exact ⟨nofun, nofun⟩
  · obtain ⟨es, hes, e⟩ := Option.bind_eq_some_iff.1 h
    split at e <;> cases e
    exact ⟨fun entries he => by cases he; exact readLoadStations_windows hes, nofun⟩
  · obtain ⟨es, -, rfl⟩ := Option.map_eq_some_iff.1 h; exact ⟨nofun, nofun⟩
  · obtain ⟨es, hes, rfl⟩ := Option.map_eq_some_iff.1 h
    exact ⟨nofun, fun entries he => by cases he; exact readItemList_balanced hes⟩
  · split at h <;> cases h
    exact ⟨nofun, nofun⟩
  · cases h

theorem readNode_body {flash : List Byte} {start next : Nat} {load : NodeLoad} (h : readNode flash start = some (load, next)) :
    ∃ id body, readNodeBody id body = some load := by
  unfold readNode at h
  dsimp only at h
  split at h
  · cases h
  · split at h
    · obtain ⟨l, hl, e⟩ := Option.map_eq_some_iff.1 h
      cases e
      exact ⟨_, _, hl⟩
    · cases h

theorem Keeps.finishStartUp (h : Keeps ok a s) : Keeps ok a s.finishStartUp :=
  h.trans { tables := fun k => ⟨k.tabMemory, k.items, rfl, nofun⟩ }

theorem Keeps.loadNode (h : Keeps ok a s) {flash : List Byte} {start next : Nat} {load : NodeLoad}
    (hr : readNode flash start = some (load, next)) : Keeps ok a (s.loadNode load) := by
  obtain ⟨id, body, hbody⟩ := readNode_body hr
  obtain ⟨hstations, hitems⟩ := readNodeBody_loads hbody
  cases load with
  | ports entries => exact h.foldl fun u e _ => (Keeps.refl u).setRole _ _
  | groups rates => exact h.trans {}
  | taxes rates => exact h.trans {}
  | stations entries => exact h.loadStations (hstations entries rfl)
  | timers times => exact h.trans {}
  | items entries => exact h.loadItems (hitems entries rfl)
  | last => exact h

theorem Keeps.walkNode (h : Keeps ok a s) (read : FlashRead) : Keeps ok a (s.walkNode read) := by
  unfold State.walkNode
  split
  · exact h.finishStartUp
  · rename_i load next _ hr
    have h1 := h.loadNode hr
    have h2 : Keeps ok a ((s.loadNode load).markLoaded load) := by
      unfold State.markLoaded
      split
      · exact h1
      · exact h1.trans {}
    exact h2.trans {}
  · exact h.finishStartUp

end Sys2Proof.Invariants
end

section
/-! PROOFS. What the requests of every kind keep, and so every command: O2, O4, O5, O6, O7, O8 and the first part of O3. -/

namespace Sys2Proof.Invariants

-- One theorem after another: as many checks at once take a thread each.
set_option Elab.async false

open Sys2Proof Sys2Proof.Machine Sys2Proof.Statements

variable {ok : Prop} {a s t : State}

/-! ### Requests when taken -/

theorem Keeps.unlessSaving (h : Keeps ok a s) (p : Port) (hl : Keeps ok a t) : Keeps ok a (s.unlessSaving p t) := by
  unfold State.unlessSaving
  split
  · exact h.refuse _ _ _
  · exact hl

theorem Keeps.takeLoadTaxes (h : Keeps ok a s) (p : Port) (body : List Byte) : Keeps ok a (takeLoadTaxes p body s) := by
  refine h.unlessSaving p ?_
  split
  · exact h.refuse _ _ _
  · exact Keeps.reply (h.trans {}) _ _ _

theorem Keeps.takeLoadGroups (h : Keeps ok a s) (p : Port) (body : List Byte) : Keeps ok a (takeLoadGroups p body s) := by
  refine h.unlessSaving p ?_
  split
  · exact h.refuse _ _ _
  · exact Keeps.reply (h.trans {}) _ _ _

theorem Keeps.takeLoadItems (h : Keeps ok a s) (p : Port) (body : List Byte) : Keeps ok a (takeLoadItems p body s) := by
  refine h.unlessSaving p ?_
  split
  · exact h.refuse _ _ _
  · rename_i entries he
    exact ((h.loadItems (readItemList_balanced he)).latchItems _ _).reply _ _ _

theorem Keeps.takeReadItems (h : Keeps ok a s) (p : Port) (body : List Byte) : Keeps ok a (takeReadItems p body s) := by
  unfold Machine.takeReadItems
  split
  · exact h.refuse _ _ _
  · exact h.reply _ _ _

theorem readSetStock_level {body : List Byte} {c v : Nat} (h : readSetStock body = some (c, v)) : v ≤ 9999 := by
  unfold readSetStock at h
  split at h
  · split at h
    · rename_i hle
      cases h
      exact of_decide_eq_true (Bool.and_eq_true_iff.1 hle).2
    · cases h
  · cases h

theorem Keeps.takeSetStock (h : Keeps ok a s) (p : Port) (body : List Byte) : Keeps ok a (takeSetStock p body s) := by
  refine h.unlessSaving p ?_
  split
  · exact h.refuse _ _ _
  · rename_i c v hv
    split
    · exact h.refuse _ _ _
    · refine Keeps.reply (Keeps.latchItems (h.setItem fun _ i e t ht => ?_) _ _) _ _ _
      cases e
      cases ht
      exact ⟨rfl, readSetStock_level hv⟩

/-- The delta that is applied leaves stock and level in range and moves them together (R48, R50). -/
theorem adjustTracking_balanced {t : Tracking} (h : t.balanced) (d : Int) : (adjustTracking d t).balanced := by
  obtain ⟨hsum, hlevel⟩ := h
  have hd : -(t.stock : Int) ≤ appliedDelta d t ∧ appliedDelta d t ≤ 9999 - (t.level : Int) := by
    unfold appliedDelta
    split <;> omega
  exact ⟨show ((t.stock : Int) + appliedDelta d t).toNat + t.sold = ((t.level : Int) + appliedDelta d t).toNat by omega,
    show ((t.level : Int) + appliedDelta d t).toNat ≤ 9999 by omega⟩

theorem Keeps.takeAdjustStock (h : Keeps ok a s) (p : Port) (body : List Byte) : Keeps ok a (takeAdjustStock p body s) := by
  refine h.unlessSaving p ?_
  split
  · exact h.refuse _ _ _
  · rename_i c d _
    split
    · exact h.refuse _ _ _
    · rename_i i hi
      split
      · exact h.refuse _ _ _
      · rename_i t0 ht0
        refine Keeps.reply (Keeps.latchItems (h.setItem fun hb j e t ht => ?_) _ _) _ _ _
        cases e
        cases ht
        exact adjustTracking_balanced (balanced_of_item hb hi ht0) d

theorem Keeps.takeAvailQuery (h : Keeps ok a s) (p : Port) (body : List Byte) : Keeps ok a (takeAvailQuery p body s) := by
  unfold Machine.takeAvailQuery
  split
  · exact h.refuse _ _ _
  · exact (h.markStale p).reply _ _ _

/-! Requests on tabs (chapters 1, 3, 6, 7, 8) -/

theorem Keeps.takeOrder (h : Keeps ok a s) (p : Port) (body : List Byte) : Keeps ok a (takeOrder p body s) := by
  unfold Machine.takeOrder
  split
  · exact h.refuse _ _ _
  · split
    · exact h.cacheNewOrder _
    · exact h.toCache _ _ _

theorem Keeps.takeVoid (h : Keeps ok a s) (p : Port) (body : List Byte) : Keeps ok a (takeVoid p body s) := by
  unfold Machine.takeVoid
  split
  · exact h.refuse _ _ _
  · exact h.toCache _ _ _

theorem Keeps.takeReadTab (h : Keeps ok a s) (p : Port) (body : List Byte) : Keeps ok a (takeReadTab p body s) := by
  unfold Machine.takeReadTab
  split
  · exact h.refuse _ _ _
  · split
    · exact h.refuse _ _ _
    · exact h.cacheRequest _ _

theorem Keeps.takeListTabs (h : Keeps ok a s) (p : Port) (body : List Byte) : Keeps ok a (takeListTabs p body s) := by
  unfold Machine.takeListTabs
  split
  · exact h.refuse _ _ _
  · split
    · exact h.refuse _ _ _
    · exact h.reply _ _ _

theorem Keeps.takeSplit (h : Keeps ok a s) (p : Port) (body : List Byte) : Keeps ok a (takeSplit p body s) := by
  unfold Machine.takeSplit
  split
  · exact h.refuse _ _ _
  · exact h.toCache _ _ _

theorem Keeps.takeCancelSplit (h : Keeps ok a s) (p : Port) (body : List Byte) : Keeps ok a (takeCancelSplit p body s) := by
  unfold Machine.takeCancelSplit
  split
  · exact h.refuse _ _ _
  · exact h.toCache _ _ _

theorem Keeps.takeTender (h : Keeps ok a s) (p : Port) (body : List Byte) : Keeps ok a (takeTender p body s) := by
  unfold Machine.takeTender
  split
  · exact h.refuse _ _ _
  · exact h.toCache _ _ _

theorem Keeps.takeResume (h : Keeps ok a s) (p : Port) (body : List Byte) : Keeps ok a (takeResume p body s) := by
  unfold Machine.takeResume
  split
  · exact h.refuse _ _ _
  · exact h.toCache _ _ _

theorem Keeps.takeDiscardTab (h : Keeps ok a s) (p : Port) (body : List Byte) : Keeps ok a (takeDiscardTab p body s) := by
  unfold Machine.takeDiscardTab
  split
  · exact h.refuse _ _ _
  · split
    · split
      · exact h.refuse _ _ _
      · exact h.refuse _ _ _
      · exact h.refuse _ _ _
      · exact h.discardDamaged _ _
      · exact h.cacheRequest _ _
    · exact h.refuse _ _ _

theorem Keeps.takeCollect (h : Keeps ok a s) (p : Port) (body : List Byte) : Keeps ok a (takeCollect p body s) := by
  unfold Machine.takeCollect
  split
  · exact h.refuse _ _ _
  · split
    · exact h.refuse _ _ _
    · exact h.cacheRequest _ _

/-! Requests on the kitchen (chapters 4, 5) -/

theorem Keeps.takeTaken (h : Keeps ok a s) (p : Port) (body : List Byte) : Keeps ok a (takeTaken p body s) := by
  unfold Machine.takeTaken
  split
  · exact h
  · split
    · exact h
    · split
      · exact h.tickets (.showTicket _ _ _)
      · split
        · exact h.tickets (.restartAck _ _)
        · exact h

theorem Keeps.takeStart (h : Keeps ok a s) (p : Port) (body : List Byte) : Keeps ok a (takeStart p body s) := by
  unfold Machine.takeStart
  split
  · exact h.refuse _ _ _
  · rename_i n _
    split
    · exact h.refuse _ _ _
    · split
      · have h1 : Keeps ok a (s.mapTicket p n fun u => { u with started := true }) :=
          h.tickets (.mapTicket s p n fun _ _ _ _ => ⟨rfl, rfl⟩)
        exact h1.reply _ _ _
      · exact h.refuse _ _ _

theorem Keeps.takeBump (h : Keeps ok a s) (p : Port) (body : List Byte) : Keeps ok a (takeBump p body s) := by
  unfold Machine.takeBump
  split
  · exact h.refuse _ _ _
  · split
    · exact h.refuse _ _ _
    · split
      · exact h.refuse _ _ _
      · split
        · exact h.refuse _ _ _
        · exact (h.bumpTicket _ _).reply _ _ _

theorem Keeps.takeRecall (h : Keeps ok a s) (p : Port) (body : List Byte) : Keeps ok a (takeRecall p body s) := by
  unfold Machine.takeRecall
  split
  · exact h.refuse _ _ _
  · split
    · exact h.refuse _ _ _
    · rename_i e rest hrecalls
      split
      · refine Keeps.refuse (h.trans { kitchen := fun k => ?_ }) _ _ _
        have hlen := (k.stations p).recalls
        rw [hrecalls] at hlen
        exact k.shrink ⟨(k.stations p).queue, (k.stations p).sent, (k.stations p).window, Nat.le_of_succ_le hlen⟩ (.refl _)
      · split
        · exact h.refuse _ _ _
        · rename_i hlen; exact (h.recallEntry (not_le.1 hlen) _).reply _ _ _

theorem Keeps.takeHello (h : Keeps ok a s) (p : Port) (body : List Byte) : Keeps ok a (takeHello p body s) := by
  unfold Machine.takeHello
  split
  · exact h.refuse _ _ _
  · exact (h.helloStation p).reply _ _ _

theorem Keeps.takeCancelTicket (h : Keeps ok a s) (p : Port) (body : List Byte) : Keeps ok a (takeCancelTicket p body s) := by
  unfold Machine.takeCancelTicket
  split
  · exact h.refuse _ _ _
  · split
    · exact h.refuse _ _ _
    · exact (h.removeTicket _).reply _ _ _

theorem Keeps.takeLoadStations (h : Keeps ok a s) (p : Port) (body : List Byte) : Keeps ok a (takeLoadStations p body s) := by
  unfold Machine.takeLoadStations
  split
  · exact h.refuse _ _ _
  · split
    · exact h.refuse _ _ _
    · rename_i entries he
      exact (h.loadStations (readLoadStations_windows he)).reply _ _ _

/-! Requests on the memory controller and the office unit (chapters 2, 9, 10) -/

theorem Keeps.takeFlushTabs (h : Keeps ok a s) (p : Port) (body : List Byte) : Keeps ok a (takeFlushTabs p body s) := by
  unfold Machine.takeFlushTabs
  split
  · exact h.refuse _ _ _
  · dsimp only
    split
    · exact h.reply _ _ _
    · refine Keeps.trans (h.foldl (l := s.flushSlots) (f := fun acc i => acc.startWrite i .none (acc.slot i).waits)
        fun u i _ => (Keeps.refl u).startWrite i .none id) {}

theorem Keeps.takeAuditTabs (h : Keeps ok a s) (p : Port) (body : List Byte) : Keeps ok a (takeAuditTabs p body s) := by
  unfold Machine.takeAuditTabs
  split
  · exact h.refuse _ _ _
  · split
    · exact h.refuse _ _ _
    · exact (h.reply _ _ _).walkAudit _ _

theorem Keeps.takeCheckSplit (h : Keeps ok a s) (p : Port) (body : List Byte) : Keeps ok a (takeCheckSplit p body s) := by
  unfold Machine.takeCheckSplit
  split
  · exact h.refuse _ _ _
  · split
    · exact h.refuse _ _ _
    · refine Keeps.reply (h.trans ?_) _ _ _
      exact { lists := fun k => ⟨k.notices, k.availList, k.waits, k.engine, fun _ => ⟨_, rfl⟩, k.recency⟩ }

theorem Keeps.takeResetPort (h : Keeps ok a s) (p : Port) (body : List Byte) : Keeps ok a (takeResetPort p body s) := by
  unfold Machine.takeResetPort
  split
  · exact h.refuse _ _ _
  · split
    · exact h.refuse _ _ _
    · exact (h.resetPort _).reply _ _ _

theorem Keeps.takeLoadPorts (h : Keeps ok a s) (p : Port) (body : List Byte) : Keeps ok a (takeLoadPorts p body s) := by
  unfold Machine.takeLoadPorts
  split
  · exact h.refuse _ _ _
  · split
    · exact h.refuse _ _ _
    · exact (h.foldl fun u e _ => (Keeps.refl u).loadPort e).reply _ _ _

theorem Keeps.takeSaveConfig (h : Keeps ok a s) (p : Port) (body : List Byte) : Keeps ok a (takeSaveConfig p body s) := by
  unfold Machine.takeSaveConfig
  split
  · exact h.refuse _ _ _
  · split
    · exact h.refuse _ _ _
    · exact Keeps.reply (h.trans {}) _ _ _

theorem Keeps.takeLoadTimers (h : Keeps ok a s) (p : Port) (body : List Byte) : Keeps ok a (takeLoadTimers p body s) := by
  refine h.unlessSaving p ?_
  split
  · exact h.refuse _ _ _
  · exact Keeps.reply (h.trans {}) _ _ _

theorem Keeps.takeNoticeMask (h : Keeps ok a s) (p : Port) (body : List Byte) : Keeps ok a (takeNoticeMask p body s) := by
  unfold Machine.takeNoticeMask
  split
  · exact h.refuse _ _ _
  · exact Keeps.reply (h.trans {}) _ _ _

theorem Keeps.takeStatus (h : Keeps ok a s) (p : Port) (body : List Byte) : Keeps ok a (takeStatus p body s) := by
  unfold Machine.takeStatus
  split
  · exact h.refuse _ _ _
  · exact h.reply _ _ _

theorem Keeps.takeDescribe (h : Keeps ok a s) (p : Port) (body : List Byte) : Keeps ok a (takeDescribe p body s) := by
  unfold Machine.takeDescribe
  split
  · exact h.refuse _ _ _
  · exact h.reply _ _ _

/-! ### Frames -/

/-- The block that owns a kind keeps the invariants, whatever the body. -/
theorem ownerOf_keeps (k : Kind) (p : Port) (body : List Byte) (s : State) : Keeps ok s (ownerOf k p body s) := by
  have h := Keeps.refl (ok := ok) s
  cases k with
  | order => exact h.takeOrder p body
  | void => exact h.takeVoid p body
  | readTab => exact h.takeReadTab p body
  | listTabs => exact h.takeListTabs p body
  | split => exact h.takeSplit p body
  | cancelSplit => exact h.takeCancelSplit p body
  | tender => exact h.takeTender p body
  | resume => exact h.takeResume p body
  | availQuery => exact h.takeAvailQuery p body
  | hello => exact h.takeHello p body
  | taken => exact h.takeTaken p body
  | start => exact h.takeStart p body
  | bump => exact h.takeBump p body
  | recallTicket => exact h.takeRecall p body
  | loadPorts => exact h.takeLoadPorts p body
  | loadGroups => exact h.takeLoadGroups p body
  | loadTaxes => exact h.takeLoadTaxes p body
  | loadItems => exact h.takeLoadItems p body
  | loadStations => exact h.takeLoadStations p body
  | loadTimers => exact h.takeLoadTimers p body
  | setStock => exact h.takeSetStock p body
  | adjustStock => exact h.takeAdjustStock p body
  | readItems => exact h.takeReadItems p body
  | collect => exact h.takeCollect p body
  | discardTab => exact h.takeDiscardTab p body
  | cancelTicket => exact h.takeCancelTicket p body
  | flushTabs => exact h.takeFlushTabs p body
  | auditTabs => exact h.takeAuditTabs p body
  | checkSplit => exact h.takeCheckSplit p body
  | resetPort => exact h.takeResetPort p body
  | saveConfig => exact h.takeSaveConfig p body
  | noticeMask => exact h.takeNoticeMask p body
  | status => exact h.takeStatus p body
  | describe => exact h.takeDescribe p body
  | ticket => exact h
  | withdraw => exact h
  | image => exact h
  | reply => exact h
  | availability => exact h
  | notice => exact h

theorem Keeps.receive (h : Keeps ok a s) (k : Kind) (p : Port) (tag : Byte) (body : List Byte) :
    Keeps ok a (receive k (ownerOf k) p tag body s) := by
  unfold Machine.receive State.judgeKind State.judgeSlot
  have h1 := h.delimit p
  split
  · exact h
  · split
    · exact h1
    · split
      · split
        · exact h1.takeTaken p body
        · split
          · exact h1.answer _ _ _ _
          · split
            · exact h1.answer _ _ _ _
            · exact (h1.occupy p k tag).trans (ownerOf_keeps k p body _)
      · exact h1.answer _ _ _ _

theorem Keeps.receiveByte (h : Keeps ok a s) (kind : Byte) (p : Port) (tag : Byte) (body : List Byte) :
    Keeps ok a (receiveByte kind p tag body s) := by
  unfold Machine.receiveByte
  split
  · exact h.receive _ p tag body
  · split
    · exact h
    · split
      · exact h.delimit p
      · exact (h.delimit p).answer _ _ _ _

theorem Keeps.receiveFrame (h : Keeps ok a s) (p : Port) (run : List Byte) : Keeps ok a (receiveFrame p run s) := by
  unfold Machine.receiveFrame
  split
  · exact h.delimit p
  · split
    · split
      · exact h.receiveByte _ _ _ _
      · exact h.delimit p
    · exact (h.delimit p).answer _ _ _ _

theorem Keeps.receiveRun (h : Keeps ok a s) (p : Port) (run : List Byte) : Keeps ok a (receiveRun p run s) := by
  unfold Machine.receiveRun
  split
  · exact h.delimit p
  · exact h.receiveFrame p _

/-! ### The switch's own events -/

theorem Keeps.offerTo (h : Keeps ok a s) (body : List Byte) (p : Port) : Keeps ok a (State.offerTo body s p) := by
  unfold State.offerTo
  split
  · rename_i hroom; exact h.sendOwn hroom
  · exact h.markStale p

theorem Keeps.setAvailList (h : Keeps ok a s) {l : List AvailEntry} (hl : ListsFit a → l.length ≤ 32) :
    Keeps ok a { s with availList := l } where
  pending := h.pending
  room := h.room
  kitchen k := let k := h.kitchen k; ⟨k.stations, k.overflow, k.numbers, k.places, k.counter⟩
  lists k := let k' := h.lists k; ⟨k'.notices, hl k, k'.waits, k'.engine, k'.running, k'.recency⟩
  stock := h.stock
  records hok k := let k := h.records hok k; ⟨k.cache, k.memory⟩
  tables k := let k := h.tables k; ⟨k.tabMemory, k.items, k.directory, k.listed⟩

theorem Keeps.offerAvailability (h : Keeps ok a s) : Keeps ok a s.offerAvailability := by
  unfold State.offerAvailability
  split
  · exact h
  · refine Keeps.setAvailList (h.foldl fun u p _ => (Keeps.refl u).offerTo _ p) fun k => ?_
    exact (List.drop_sublist 8 _).length_le.trans (h.lists k).availList

theorem Keeps.sendAvailabilityImage (h : Keeps ok a s) {p : Port} (hdue : s.imageFrameDue p = true) :
    Keeps ok a (s.sendAvailabilityImage p) := by
  have hroom := hasRoom_of_no_frames (Bool.and_eq_true_iff.1 hdue).2
  unfold State.sendAvailabilityImage
  dsimp only
  refine (h.sendOwn hroom).setPort fun hr => ?_
  split <;> exact hr

/-! ### Every command -/

theorem transmitRoom_reset : TransmitRoom State.reset := fun p => by
  have : State.reset.port p = LanePort.fresh := by simp [State.port, State.reset]
  rw [this]; decide

theorem station_reset (p : Port) : State.reset.station p = Station.fresh := by simp [State.station, State.reset]

theorem liveTickets_reset : State.reset.liveTickets = [] := by
  unfold State.liveTickets
  simp only [station_reset]
  rfl

theorem kitchenFits_reset : KitchenFits State.reset := by
  refine ⟨fun p => ?_, by decide, ?_, fun p x hx => ?_, by decide⟩
  · rw [station_reset]; exact ⟨by decide, by decide, by decide, by decide⟩
  · rw [liveTickets_reset]; exact List.nodup_nil
  · rw [station_reset] at hx; cases hx

theorem slot_reset (i : SlotId) : State.reset.slot i = CacheSlot.cleared := by simp [State.slot, State.reset]

theorem listsFit_reset : ListsFit State.reset := by
  refine ⟨by decide, by decide, fun i => ?_, by decide, fun h => absurd rfl h, .rfl⟩
  rw [slot_reset]; decide

theorem Keeps.partReset (s : State) (left : List Byte) : Keeps ok s (s.partReset left) where
  pending := rfl
  room _ := transmitRoom_reset
  kitchen _ := let k := kitchenFits_reset; ⟨k.stations, k.overflow, k.numbers, k.places, k.counter⟩
  lists _ := let k := listsFit_reset; ⟨k.notices, k.availList, k.waits, k.engine, k.running, k.recency⟩
  stock _ := nofun
  records _ k := by
    refine ⟨fun i r hr => ?_, k.memory⟩
    rw [show (s.partReset left).slot i = State.reset.slot i from rfl, slot_reset] at hr
    cases hr
  tables k := ⟨k.tabMemory, rfl, rfl, nofun⟩

/-- Every command answers a next state and keeps every invariant but the agreement of the tables; a record that the memory port brings is
taken to be in range (assumption 3). -/
theorem exec_keeps (c : Instr) (s : State) :
    ∃ t, exec c s = .next t ∧ Keeps (∀ r, broughtRecord c = some r → RecordFits r) s t := by
  have h := fun ok => Keeps.refl (ok := ok) s
  cases c with
  | partReset left => exact ⟨_, rfl, .partReset s left⟩
  | configWalkNode read =>
    refine ⟨_, rfl, ?_⟩
    split
    · exact (h _).walkNode read
    · exact h _
  | runDiscarded port run => exact ⟨_, rfl, (h _).receiveRun port run⟩
  | linkError port run =>
    refine ⟨_, rfl, ?_⟩
    split
    · exact (h _).receiveFrame port run
    · exact (h _).delimit port
  | kindNotPermitted port kind tag body => exact ⟨_, rfl, (h _).receiveByte kind port tag body⟩
  | order port tag body => exact ⟨_, rfl, (h _).receive .order port tag body⟩
  | void port tag body => exact ⟨_, rfl, (h _).receive .void port tag body⟩
  | readTab port tag body => exact ⟨_, rfl, (h _).receive .readTab port tag body⟩
  | listTabs port tag body => exact ⟨_, rfl, (h _).receive .listTabs port tag body⟩
  | split port tag body => exact ⟨_, rfl, (h _).receive .split port tag body⟩
  | cancelSplit port tag body => exact ⟨_, rfl, (h _).receive .cancelSplit port tag body⟩
  | tender port tag body => exact ⟨_, rfl, (h _).receive .tender port tag body⟩
  | resume port tag body => exact ⟨_, rfl, (h _).receive .resume port tag body⟩
  | availQuery port tag body => exact ⟨_, rfl, (h _).receive .availQuery port tag body⟩
  | hello port tag body => exact ⟨_, rfl, (h _).receive .hello port tag body⟩
  | taken port tag body => exact ⟨_, rfl, (h _).receive .taken port tag body⟩
  | start port tag body => exact ⟨_, rfl, (h _).receive .start port tag body⟩
  | bump port tag body => exact ⟨_, rfl, (h _).receive .bump port tag body⟩
  | recallTicket port tag body => exact ⟨_, rfl, (h _).receive .recallTicket port tag body⟩
  | loadPorts port tag body => exact ⟨_, rfl, (h _).receive .loadPorts port tag body⟩
  | loadGroups port tag body => exact ⟨_, rfl, (h _).receive .loadGroups port tag body⟩
  | loadTaxes port tag body => exact ⟨_, rfl, (h _).receive .loadTaxes port tag body⟩
  | loadItems port tag body => exact ⟨_, rfl, (h _).receive .loadItems port tag body⟩
  | loadStations port tag body => exact ⟨_, rfl, (h _).receive .loadStations port tag body⟩
  | loadTimers port tag body => exact ⟨_, rfl, (h _).receive .loadTimers port tag body⟩
  | setStock port tag body => exact ⟨_, rfl, (h _).receive .setStock port tag body⟩
  | adjustStock port tag body => exact ⟨_, rfl, (h _).receive .adjustStock port tag body⟩
  | readItems port tag body => exact ⟨_, rfl, (h _).receive .readItems port tag body⟩
  | collect port tag body => exact ⟨_, rfl, (h _).receive .collect port tag body⟩
  | discardTab port tag body => exact ⟨_, rfl, (h _).receive .discardTab port tag body⟩
  | cancelTicket port tag body => exact ⟨_, rfl, (h _).receive .cancelTicket port tag body⟩
  | flushTabs port tag body => exact ⟨_, rfl, (h _).receive .flushTabs port tag body⟩
  | auditTabs port tag body => exact ⟨_, rfl, (h _).receive .auditTabs port tag body⟩
  | checkSplit port tag body => exact ⟨_, rfl, (h _).receive .checkSplit port tag body⟩
  | resetPort port tag body => exact ⟨_, rfl, (h _).receive .resetPort port tag body⟩
  | saveConfig port tag body => exact ⟨_, rfl, (h _).receive .saveConfig port tag body⟩
  | noticeMask port tag body => exact ⟨_, rfl, (h _).receive .noticeMask port tag body⟩
  | status port tag body => exact ⟨_, rfl, (h _).receive .status port tag body⟩
  | describe port tag body => exact ⟨_, rfl, (h _).receive .describe port tag body⟩
  | ackTimerExpiry port =>
    refine ⟨_, rfl, ?_⟩
    split
    · exact h _
    · exact (h _).ackExpiry port _
  | holdExpiry port =>
    refine ⟨_, rfl, ?_⟩
    split
    · exact h _
    · exact ((h _).reach _).releaseHold port _
  | imagePeriodExpiry => exact ⟨_, rfl, (h _).imagePeriod⟩
  | memoryOpStart => exact ⟨_, rfl, (h _).startOperation⟩
  | fetchComplete read =>
    refine ⟨_, rfl, ?_⟩
    split
    · split
      · exact (h _).freeController.finishFetch _ _ fun hok cell e => hok cell.record (by rw [e]; rfl)
      · exact h _
    · exact h _
  | fetchAbandoned =>
    refine ⟨_, rfl, ?_⟩
    split
    · exact ((h _).freeController.reach _).abandonFetch _ _
    · exact h _
  | writeBackComplete =>
    refine ⟨_, rfl, ?_⟩
    split
    · split
      · exact (h _).freeController.finishWrite _
      · exact h _
    · exact h _
  | writeBackAbandoned left =>
    refine ⟨_, rfl, ?_⟩
    split
    · exact ((h _).freeController.reach _).abandonWrite _ fun hok cell e => hok cell.record (by rw [e]; rfl)
    · exact h _
  | auditReadComplete read =>
    refine ⟨_, rfl, ?_⟩
    split
    · split
      · exact (h _).freeController.endAuditRead _ _
      · exact h _
    · exact h _
  | auditReadAbandoned =>
    refine ⟨_, rfl, ?_⟩
    split
    · exact ((h _).freeController.reach _).endAuditRead _ _
    · exact h _
  | splitCheckEnd passed => exact ⟨_, rfl, (h _).endCheck passed⟩
  | saveEraseComplete => exact ⟨_, rfl, (h _).eraseDone⟩
  | saveNodeVerified readBack => exact ⟨_, rfl, (h _).nodeVerified readBack⟩
  | saveFault left => exact ⟨_, rfl, (h _).failSave left⟩
  | saveTimeout left => exact ⟨_, rfl, (h _).timeOutSave left⟩
  | frameSent port => exact ⟨_, rfl, (h _).frameLeaves port⟩
  | waiterExecutes slot => exact ⟨_, rfl, (h _).executeHead slot⟩
  | ticketSend port =>
    refine ⟨_, rfl, ?_⟩
    split
    · rename_i hsend
      split
      · exact h _
      · exact (h _).sendTicket hsend _
    · exact h _
  | urgentImage port =>
    refine ⟨_, rfl, ?_⟩
    split
    · rename_i hdue; exact (h _).sendImage hdue.2.2 _
    · exact h _
  | trickleImage port =>
    refine ⟨_, rfl, ?_⟩
    split
    · rename_i hdue; exact (h _).sendImage (hasRoom_of_no_frames hdue.2.2) _
    · exact h _
  | availabilityOffer => exact ⟨_, rfl, (h _).offerAvailability⟩
  | availabilityImageFrame port =>
    refine ⟨_, rfl, ?_⟩
    split
    · rename_i hdue; exact (h _).sendAvailabilityImage hdue
    · exact h _
  | noticeSend => exact ⟨_, rfl, (h _).sendNotice⟩

/-- What a command keeps, for a command that leads to a state. -/
theorem keeps_of_exec {c : Instr} (h : exec c s = .next t) :
    Keeps (∀ r, broughtRecord c = some r → RecordFits r) s t := by
  obtain ⟨u, e, k⟩ := exec_keeps c s
  rw [e] at h
  cases h
  exact k

/-- What a step keeps besides the queue of commands: that of its command, or of the clock alone. -/
theorem step_cases (h : step s = .next t) :
    (s.pending = [] ∧ t = { s with now := s.now + 1 }) ∨
    ∃ c rest, s.pending = c :: rest ∧
      Keeps (∀ r, broughtRecord c = some r → RecordFits r) { s with pending := rest } t := by
  unfold step at h
  split at h
  · rename_i hp; cases h; exact .inl ⟨hp, rfl⟩
  · rename_i c rest hp; exact .inr ⟨c, rest, hp, keeps_of_exec h⟩

/-- Settles O2: each command's effect, block by block, leaves the queue of commands. -/
theorem commandsAnswerNextAndKeepQueue : Obligations.CommandsAnswerNextAndKeepQueue := by
  unfold Obligations.CommandsAnswerNextAndKeepQueue
  intro c s
  obtain ⟨t, h, k⟩ := exec_keeps c s
  exact ⟨t, h, k.pending⟩

/-- Settles O4: a frame enters a queue with room for it, or is the slot's reply. -/
theorem stepKeepsTransmitRoom : Obligations.StepKeepsTransmitRoom := by
  unfold Obligations.StepKeepsTransmitRoom
  intro s t hs h
  rcases step_cases h with ⟨-, rfl⟩ | ⟨c, rest, -, k⟩
  · exact hs
  · exact k.room hs

/-- Settles O5: every change of the kitchen lists keeps the live tickets apart and the lists within their capacities. -/
theorem stepKeepsKitchenCapacities : Obligations.StepKeepsKitchenCapacities := by
  unfold Obligations.StepKeepsKitchenCapacities
  intro s t hs h
  rcases step_cases h with ⟨-, rfl⟩ | ⟨c, rest, -, k⟩
  · exact ⟨hs.stations, hs.overflow, hs.numbers, hs.places, hs.counter⟩
  · exact k.kitchen ⟨hs.stations, hs.overflow, hs.numbers, hs.places, hs.counter⟩

/-- Settles O6: every list is tested for room before it grows, and the engine wait list grows only when a check runs. -/
theorem stepKeepsListCapacities : Obligations.StepKeepsListCapacities := by
  unfold Obligations.StepKeepsListCapacities
  intro s t hs h
  rcases step_cases h with ⟨-, rfl⟩ | ⟨c, rest, -, k⟩
  · exact ⟨hs.notices, hs.availList, hs.waits, hs.engine, hs.running, hs.recency⟩
  · exact k.lists ⟨hs.notices, hs.availList, hs.waits, hs.engine, hs.running, hs.recency⟩

/-- Settles O7: an ORDER sells at most the stock, a VOID returns at most what was sold, a delta is cut to the range; a record is written
only with a total within the limit, and a share is credited at most what it owes. -/
theorem stepKeepsStockBalance : Obligations.StepKeepsStockBalance := by
  unfold Obligations.StepKeepsStockBalance
  refine ⟨fun s t hs h => ?_, fun s t hs hbrought h => ?_⟩
  · rcases step_cases h with ⟨-, rfl⟩ | ⟨c, rest, -, k⟩
    · exact hs
    · exact k.stock hs
  · rcases step_cases h with ⟨-, rfl⟩ | ⟨c, rest, hp, k⟩
    · exact ⟨hs.cache, hs.memory⟩
    · exact k.records (fun r hr => hbrought c r (by rw [hp]; rfl) hr) ⟨hs.cache, hs.memory⟩

/-- The first part of O3: every sparse table is changed by the operations that keep its form. -/
theorem step_keeps_tables (h : step s = .next t) (hs : TablesInForm s) : TablesInForm t := by
  rcases step_cases h with ⟨-, rfl⟩ | ⟨c, rest, -, k⟩
  · exact ⟨hs.tabMemory, hs.items, hs.directory, hs.listed⟩
  · exact k.tables ⟨hs.tabMemory, hs.items, hs.directory, hs.listed⟩

end Sys2Proof.Invariants
end

section
/-! PROOFS. Frames at a port: a frame turned away, a request taken and answered. O1, O8 to O12, O20, O34, O44, O47. -/

namespace Sys2Proof.Frames

-- One theorem after another: as many checks at once take a thread each.
set_option Elab.async false

open Sys2Proof Sys2Proof.Machine Sys2Proof.Statements Sys2Proof.Invariants

/-! ### A request that is taken and answered -/

/-- A frame's command is its receiving, by the block that owns its kind. -/
theorem exec_of_frame {s : State} {p : Port} {k : Kind} {tag : Byte} {body : List Byte} {c : Instr}
    (hc : frameCommand p tag body k = some c) : exec c s = .next (receive k (ownerOf k) p tag body s) := by
  cases k <;> cases hc <;> rfl

/-- A request that passes the checks of its port comes to its block, in either phase for DESCRIBE. -/
theorem exec_of_passing {s : State} {p : Port} {k : Kind} {tag : Byte} {body : List Byte} {c : Instr}
    (hc : frameCommand p tag body k = some c) (hb : body.length ≤ maxBody) (hr : maySend (s.role p) k = true)
    (hk : k ≠ .taken) (hp : s.phase = .ready ∨ k = .describe) (hs : (s.port p).request = none) :
    exec c s = .next (ownerOf k p body (afterTaking s p k tag)) := by
  rw [exec_of_frame hc, receive_taken (ownerOf k) hb hr hk hp hs]
  rfl

/-- A request that is admitted comes to its block. -/
theorem exec_of_admitted {s : State} {p : Port} {k : Kind} {tag : Byte} {body : List Byte} {c : Instr}
    (hc : frameCommand p tag body k = some c) (hb : body.length ≤ maxBody) (ha : Admitted s p k) (hk : k ≠ .taken) :
    exec c s = .next (ownerOf k p body (afterTaking s p k tag)) := by
  obtain ⟨hphase, hrole, hfree⟩ := ha
  exact exec_of_passing hc hb hrole hk (.inl hphase) hfree

/-- What the office controller sends is admitted on port 0. -/
theorem admitted_of_office {s : State} (h : OfficeAdmitted s) {k : Kind} (hk : maySend .uplink k = true) : Admitted s 0 k := by
  obtain ⟨hphase, hrole, hfree⟩ := h
  exact ⟨hphase, by rw [hrole]; exact hk, hfree⟩

@[simp] theorem afterTaking_port (s : State) (p : Port) (k : Kind) (tag : Byte) :
    (afterTaking s p k tag).port p = waitingPort (s.port p) k tag := s.port_setPort_self p _

theorem afterTaking_port_other (s : State) {p q : Port} (h : q ≠ p) (k : Kind) (tag : Byte) :
    (afterTaking s p k tag).port q = s.port q := s.port_setPort_other h _

/-- The reply at a port that has taken its request, whatever else has changed. -/
theorem reply_at_waiting {s u : State} {p : Port} {k : Kind} {tag : Byte} (hu : u.port p = waitingPort (s.port p) k tag)
    (status : Status) (fields : List Byte) :
    u.reply p status fields = u.setPort p (repliedPort (s.port p) k tag status fields) := by
  rw [State.reply_of_request u p _ _ (congrArg LanePort.request hu), hu]
  rfl

/-- A request that only replies leaves the port as its reply does, and nothing else. -/
theorem reply_afterTaking (s : State) (p : Port) (k : Kind) (tag : Byte) (status : Status) (fields : List Byte) :
    (afterTaking s p k tag).reply p status fields = s.setPort p (repliedPort (s.port p) k tag status fields) := by
  rw [reply_at_waiting (afterTaking_port s p k tag), afterTaking, State.setPort_setPort]

theorem refuse_afterTaking (s : State) (p : Port) (k : Kind) (tag : Byte) (status : Status) (d : Detail) :
    (afterTaking s p k tag).refuse p status d = s.setPort p (repliedPort (s.port p) k tag status d.bytes) :=
  reply_afterTaking s p k tag status d.bytes

/-! ### Frames that are turned away (R143 to R147) -/

theorem answer_delimited (s : State) (p : Port) (status : Status) (kind tag : Byte) :
    (s.delimit p).answer p status kind tag = s.setPort p (answeredPort (s.port p) status kind tag) := by
  have hport : (s.delimit p).port p = delimited (s.port p) := s.port_setPort_self p _
  unfold State.answer answeredPort
  rw [hport]
  have hroom : (delimited (s.port p)).hasRoom = (s.port p).hasRoom := rfl
  rw [hroom]
  split
  · exact s.setPort_setPort p _ _
  · rfl

theorem receive_unused {s : State} {p : Port} {k : Kind} {tag : Byte} {body : List Byte} (block : TakenRequest)
    (hb : body.length ≤ maxBody) (hr : s.role p = .unused) :
    receive k block p tag body s = s.setPort p (delimited (s.port p)) := by
  rw [receive, if_neg (Nat.not_lt.2 hb), if_pos hr]
  rfl

theorem receive_not_permitted {s : State} {p : Port} {k : Kind} {tag : Byte} {body : List Byte} (block : TakenRequest)
    (hb : body.length ≤ maxBody) (hr : s.role p ≠ .unused) (hk : maySend (s.role p) k = false) :
    receive k block p tag body s = s.setPort p (answeredPort (s.port p) .notPermitted k.byte tag) := by
  have hrole : maySend ((s.delimit p).role p) k = false := hk
  rw [receive, if_neg (Nat.not_lt.2 hb), if_neg hr, State.judgeKind, hrole]
  exact answer_delimited s p _ _ _

theorem receive_permitted {s : State} {p : Port} {k : Kind} {tag : Byte} {body : List Byte} (block : TakenRequest)
    (hb : body.length ≤ maxBody) (hk : maySend (s.role p) k = true) (hkind : k ≠ .taken) :
    receive k block p tag body s = (s.delimit p).judgeSlot p k tag body block := by
  have hrole : maySend ((s.delimit p).role p) k = true := hk
  rw [receive, if_neg (Nat.not_lt.2 hb), if_neg (role_of_maySend hk), State.judgeKind, if_pos hrole, if_neg hkind]

/-- Settles O10: the checks of R144 to R147 in turn, each ending before the next is looked at. -/
theorem framesTurnedAwayAreAnswered : Obligations.FramesTurnedAwayAreAnswered := by
  unfold Obligations.FramesTurnedAwayAreAnswered
  intro s p k tag body c hc hb
  rw [exec_of_frame hc]
  refine ⟨fun hr => by rw [receive_unused _ hb hr], fun hr hk => by rw [receive_not_permitted _ hb hr hk],
    fun hk hkind hdescribe hphase => ?_, fun hk hkind hphase hbusy => ?_⟩
  · rw [receive_permitted _ hb hk hkind, State.judgeSlot, if_pos ⟨hphase, hdescribe⟩, answer_delimited]
  · have hready : ¬ ((s.delimit p).phase = .starting ∧ k ≠ .describe) := by
      rintro ⟨hstarting, hdescribe⟩
      rcases hphase with h | h
      · rw [State.delimit_phase, h] at hstarting; cases hstarting
      · exact hdescribe h
    have htaken : ((s.delimit p).port p).request.isSome = true := by
      rw [State.delimit, State.port_setPort_self]
      exact Option.isSome_iff_ne_none.2 hbusy
    rw [receive_permitted _ hb hk hkind, State.judgeSlot, if_neg hready, if_pos htaken, answer_delimited]

/-- Settles O11: a run that is no frame ends at the delimiter; a frame's CRC is judged before its kind, and its kind before its phase. -/
theorem badRunsAndFramesAreEnded : Obligations.BadRunsAndFramesAreEnded := by
  unfold Obligations.BadRunsAndFramesAreEnded
  refine ⟨fun s p run hframe hcrc hr => ?_, fun s p kind tag body hb hr hk => ?_, fun s p run hframe => ?_⟩
  · change Host.Outcome.next (if runIsFrame run then receiveFrame p run s else s.delimit p) = _
    unfold receiveFrame
    rw [if_pos hframe, if_neg hr, if_neg (Bool.not_eq_true _ ▸ hcrc), answer_delimited]
  · change Host.Outcome.next (receiveByte kind p tag body s) = _
    unfold receiveByte
    cases hkind : kindOfByte kind with
    | none => simp only [if_neg (Nat.not_lt.2 hb), if_neg hr, answer_delimited]
    | some k =>
      have hbyte : k.byte = kind := by
        have := List.find?_some hkind
        exact of_decide_eq_true this
      simp only [receive_not_permitted _ hb hr (hk k hkind), hbyte]
  · change Host.Outcome.next (receiveRun p run s) = _
    rw [receiveRun, if_pos (by simp [hframe])]
    rfl

/-! ### The end of a frame's sending (R149) -/

theorem pickFrame_reply {front back : List TxFrame} {g : TxFrame} (hfront : ∀ h ∈ front, h.kind ≠ .reply)
    (hg : g.kind = .reply) : pickFrame (front ++ g :: back) = some g := by
  have hnone : front.find? (fun f => f.kind = .reply) = none :=
    List.find?_eq_none.2 fun h hm => by simpa using hfront h hm
  simp [pickFrame, List.find?_append, hnone, hg]

theorem pickFrame_no_reply {queue : List TxFrame} (h : ∀ f ∈ queue, f.kind ≠ .reply) : pickFrame queue = queue.head? := by
  have hnone : queue.find? (fun f => f.kind = .reply) = none :=
    List.find?_eq_none.2 fun f hm => by simpa using h f hm
  simp [pickFrame, hnone]

/-- Settles O12: the arbiter's pick is erased from the queue, and the frame that left decides on the slot. -/
theorem frameSentFreesSlotAndPicksReplyFirst : Obligations.FrameSentFreesSlotAndPicksReplyFirst := by
  unfold Obligations.FrameSentFreesSlotAndPicksReplyFirst
  intro s p f hf
  refine ⟨{ { s.port p with sending := none }.arbitrate with
      request := if f.source = .slotReply then none else (s.port p).request }, ?_, rfl, ?_, ?_, ?_⟩
  · change Host.Outcome.next (s.frameLeaves p) = _
    simp only [State.frameLeaves, hf]
  · intro front g back hq hfront hg
    have hpick := pickFrame_reply (back := back) hfront hg
    have herase : (front ++ g :: back).erase g = front ++ back := by
      rw [List.erase_append_right _ fun hm => hfront g hm hg, List.erase_cons_head]
    simp [LanePort.arbitrate, hq, hpick, herase]
  · intro hq
    have hpick := pickFrame_no_reply hq
    cases hqueue : (s.port p).queue with
    | nil => simp [LanePort.arbitrate, hqueue, pickFrame]
    | cons g rest => simp [LanePort.arbitrate, hqueue, hqueue ▸ hpick]
  · unfold LanePort.arbitrate
    split <;> rfl

/-! ### Single requests and states -/

/-- Settles O1. -/
theorem stepRunsFrontCommand : Obligations.StepRunsFrontCommand := by
  unfold Obligations.StepRunsFrontCommand
  intro s c rest hp
  simp only [step, hp]

/-- Settles O9, by evaluation of the CRC on the example's four bytes. -/
theorem crcFollowsManualExample : Obligations.CrcFollowsManualExample := by
  unfold Obligations.CrcFollowsManualExample
  decide +kernel

theorem tablesInForm_reset : TablesInForm State.reset := ⟨rfl, rfl, rfl, nofun⟩

theorem dir_reset (t : Nat) : State.reset.dir t = DirEntry.formatted := rfl

theorem mem_allTabs (t : Nat) : t ∈ allTabs ↔ isTab t = true := by
  simp only [allTabs, List.mem_range'_1, isTab, Bool.and_eq_true, decide_eq_true_eq]
  omega

theorem slotSound_cleared : SlotSound CacheSlot.cleared :=
  ⟨fun _ => rfl, fun h => absurd rfl h, fun h => by cases h <;> contradiction, fun _ => rfl, nofun, nofun⟩

/-- After reset no tab is in use, no slot holds anything and no operation waits. -/
theorem tablesAgree_reset : TablesAgree State.reset where
  freeList := ⟨List.nodup_range', fun t => by rw [dir_reset, ← mem_allTabs]; exact (and_iff_left rfl).symm⟩
  closedList := ⟨List.nodup_nil, fun t => by rw [dir_reset]; exact iff_of_false nofun nofun⟩
  free _ _ := rfl
  holder _ _ h := by cases h
  hold p h e := by simp [State.hold, State.reset] at e
  live t := by rw [liveTickets_reset]; rfl
  recalls p e he := by rw [station_reset] at he; cases he
  slot t i := by simp [dir_reset, DirEntry.formatted, slot_reset, CacheSlot.cleared]
  damaged _ h := by cases h
  slots i := by rw [slot_reset]; exact slotSound_cleared
  operations :=
    { fetches := fun i => by rw [slot_reset]; exact iff_of_false nofun nofun
      writes := fun i => by rw [slot_reset]; exact iff_of_false nofun nofun
      once := List.nodup_nil
      audits := nofun }

/-- Settles O8: every list and table is empty, or as the part reset leaves it. -/
theorem resetMeetsInvariants : Obligations.ResetMeetsInvariants where
  tables := tablesInForm_reset
  room := transmitRoom_reset
  kitchen := kitchenFits_reset
  lists := listsFit_reset
  stock := nofun
  records := ⟨fun i r h => (by rw [slot_reset] at h; cases h), nofun⟩
  agree := tablesAgree_reset

/-- Settles O34: the stale mark and the reply fall on the same port. -/
theorem availQueryMarksStale : Obligations.AvailQueryMarksStale := by
  unfold Obligations.AvailQueryMarksStale
  intro s p tag ha
  refine ⟨_, exec_of_admitted (k := .availQuery) rfl (by simp) ha nofun, ?_⟩
  have hport : ((afterTaking s p .availQuery tag).markStale p).port p = (waitingPort (s.port p) .availQuery tag).markStale := by
    rw [State.markStale, State.port_setPort_self, afterTaking_port]
  have hput : ∀ (x : LanePort) (f : TxFrame), x.markStale.put f = (x.put f).markStale := by
    intro x f
    unfold LanePort.put LanePort.markStale LanePort.arbitrate
    dsimp only
    split <;> rfl
  change ((afterTaking s p .availQuery tag).markStale p).reply p .ok [] = _
  rw [State.reply_of_request _ p (r := { kind := .availQuery, tag := tag }) _ _ (by rw [hport]; rfl), hport, hput]
  simp only [State.markStale, afterTaking, State.setPort_setPort]
  change s.setPort p (repliedPort (s.port p) .availQuery tag .ok []).markStale = _
  rw [LanePort.markStale, show (repliedPort (s.port p) .availQuery tag .ok []).image = (s.port p).image from put_image _ _]

/-! ### Reading (R16, R17, R47, R171, R172) -/

/-- A request that reaches its tab's READY slot with nobody waiting executes at once, and the slot is most recent; a SPLIT when the check
has passed. -/
theorem cacheRequest_runs {s : State} {p : Port} {tab : Nat} {i : SlotId} (hslot : (s.dir tab).slot = some i)
    (hready : (s.slot i).state = .ready) (htab : (s.slot i).tab = some tab) (hwaits : (s.slot i).waits = [])
    (hengine : p ∉ s.engineWait) (request : TabRequest) (hc : request.isSplit = true → s.check = .passed) :
    s.cacheRequest tab { port := p, request := request } = perform i p request (s.touch i) := by
  have hjoin : s.cacheRequest tab { port := p, request := request } =
      (s.setSlot i { s.slot i with waits := [{ port := p, request := request }] }).executeHead i := by
    simp [State.cacheRequest, State.atOwnSlot, hslot, htab, hready, hwaits]
  have hback : (s.setSlot i { s.slot i with waits := [{ port := p, request := request }] }).setSlot i
      { (s.setSlot i { s.slot i with waits := [{ port := p, request := request }] }).slot i with waits := [] } = s := by
    rw [State.slot_setSlot_self, State.setSlot_setSlot, ← hwaits]
    exact s.setSlot_slot i
  rw [hjoin, State.executeHead_runs _ i (w := { port := p, request := request }) (rest := []) (by simpa using hready) (by simp)
    (by exact hengine) (by exact hc), hback]
  rfl

theorem judgeState_readTab {s : State} {p : Port} {tab : Nat} (hfree : (s.dir tab).state ≠ .free)
    (hdamaged : (s.dir tab).state ≠ .damaged) : s.judgeState .readTab p tab = none := by
  unfold State.judgeState
  cases h : (s.dir tab).state <;> simp_all [State.judgeTendering]

/-- Settles O20: the judgement lets it pass twice, and at the slot it only replies. -/
theorem readTabRepliesPage : Obligations.ReadTabRepliesPage := by
  unfold Obligations.ReadTabRepliesPage
  intro s p tag t0 t1 page i r ha hpage htab hgroup hfree hdamaged hslot hready hholds hrec hwaits hengine
  have hread : readReadTab [t0, t1, page] = some (read2 t0 t1, page.toNat) := if_pos hpage
  let u := (afterTaking s p .readTab tag).touch i
  have hjudge : (afterTaking s p .readTab tag).judgeReadTaken p (read2 t0 t1) = none := by
    have h1 : ((afterTaking s p .readTab tag).dir (read2 t0 t1)) = s.dir (read2 t0 t1) := rfl
    have h2 : (afterTaking s p .readTab tag).role p = s.role p := rfl
    have h3 : (afterTaking s p .readTab tag).sameGroup p (read2 t0 t1) = s.sameGroup p (read2 t0 t1) := rfl
    unfold State.judgeReadTaken
    rw [h1, h2, h3]
    rcases hgroup with h | h <;> simp [htab, hfree, hdamaged, h, PortRole.isTill]
  have hjudge2 : u.judgeReadTab p (read2 t0 t1) = none := by
    have h3 : u.sameGroup p (read2 t0 t1) = s.sameGroup p (read2 t0 t1) := rfl
    have h4 : u.judgeState .readTab p (read2 t0 t1) = none := judgeState_readTab (s := u) hfree hdamaged
    unfold State.judgeReadTab State.judgeExecution
    rcases hgroup with h | h
    · exact if_pos h
    · rw [h3, h, if_pos rfl, h4, ite_self]
  have hrun : performReadTab i p (read2 t0 t1) page.toNat u = u.setPort p (repliedPort (s.port p) .readTab tag .ok
      (readTabBytes (s.dir (read2 t0 t1)) r (read2 t0 t1) page.toNat)) := by
    have hrec' : (u.slot i).record = some r := hrec
    simp only [performReadTab, hjudge2, hrec']
    exact reply_at_waiting (u := u) (afterTaking_port s p .readTab tag) _ _
  refine ⟨_, exec_of_admitted (k := .readTab) rfl (by simp [maxBody]) ha nofun, ?_⟩
  have hall : ownerOf .readTab p [t0, t1, page] (afterTaking s p .readTab tag) = performReadTab i p (read2 t0 t1) page.toNat u := by
    change takeReadTab _ _ _ = _
    simp only [takeReadTab, hread, hjudge]
    exact cacheRequest_runs (s := afterTaking s p .readTab tag) hslot hready hholds hwaits hengine _ nofun
  rw [hall, hrun]
  refine ⟨rfl, State.port_setPort_self _ _ _, fun q hq => ?_, rfl⟩
  exact (State.port_setPort_other _ hq _).trans (afterTaking_port_other s hq .readTab tag)

/-- Settles O21: the listed entries are the first of the tables that match. -/
theorem readingRequestsOnlyReply : Obligations.ReadingRequestsOnlyReply := by
  unfold Obligations.ReadingRequestsOnlyReply
  refine ⟨fun s p tag t0 t1 sel g selector group ha htab hsel hg hgroup => ?_, fun s tag c0 c1 ha hc => ?_, fun s tag ha => ?_⟩
  · have hread : readListTabs [t0, t1, sel, g] = some (read2 t0 t1, selector, g.toNat) := by
      simp [readListTabs, hsel, htab, hg]
    refine ⟨_, _, exec_of_admitted (k := .listTabs) rfl (by simp [maxBody]) ha nofun, rfl, ?_, ?_, ?_, fun e he => ?_⟩
    · have hgroup' : listGroup ((afterTaking s p .listTabs tag).role p) g.toNat = some group := hgroup
      change takeListTabs _ _ _ = _
      simp only [takeListTabs, hread, hgroup']
      exact reply_afterTaking s p .listTabs tag .ok _
    · exact List.length_take_le _ _
    · exact (List.take_sublist _ _).trans List.filter_sublist
    · have hmem := (List.mem_filter.1 (List.mem_of_mem_take he)).2
      simp only [listsTab, Bool.and_eq_true, decide_eq_true_eq, Bool.or_eq_true] at hmem
      obtain ⟨hstart, ⟨hfree, hselects⟩, hgroups⟩ := hmem
      refine ⟨hstart, by simpa using hfree, fun x hx => ?_, fun x hx => ?_⟩
      · subst hx; simpa [eq_comm] using hselects
      · subst hx; simpa [eq_comm] using hgroups
  · have hread : readReadItems [c0, c1] = some (read2 c0 c1) := by simp [readReadItems, readNumber, hc]
    refine ⟨_, _, exec_of_admitted (k := .readItems) rfl (by simp [maxBody]) (admitted_of_office ha rfl) nofun, rfl, ?_, ?_, ?_,
      fun e he => ?_⟩
    · change takeReadItems _ _ _ = _
      simp only [takeReadItems, hread]
      exact reply_afterTaking s 0 .readItems tag .ok _
    · exact List.length_take_le _ _
    · exact (List.take_sublist _ _).trans List.filter_sublist
    · exact of_decide_eq_true (List.mem_filter.1 (List.mem_of_mem_take he)).2
  · refine ⟨_, exec_of_admitted (k := .status) rfl (by simp [maxBody]) (admitted_of_office ha rfl) nofun, ?_⟩
    exact reply_afterTaking s 0 .status tag .ok _

theorem describeFront_length (s : State) : s.describeFront.length = 15 := by
  simp [State.describeFront, num1, num2]

/-- The word's high byte brings the sum of the body's bytes to a multiple of 256. -/
theorem integrityByte_sum (front : List Byte) :
    ((Status.ok.byte :: Kind.describe.byte :: (front ++ [integrityByte front])).map BitVec.toNat).sum % 256 = 0 := by
  simp only [List.map_cons, List.map_append, List.sum_cons, List.sum_append, List.map_nil, List.sum_nil, integrityByte,
    BitVec.toNat_ofNat]
  generalize (front.map BitVec.toNat).sum = n
  generalize Status.ok.byte.toNat = a
  generalize Kind.describe.byte.toNat = b
  omega

theorem exec_describe {s : State} (tag : Byte) (hrole : s.role 0 = .uplink) (hfree : (s.port 0).request = none) :
    ∃ t, exec (.describe 0 tag []) s = .next t ∧
      OnlyReplied s t 0 .describe tag .ok (s.describeFront ++ [integrityByte s.describeFront]) := by
  refine ⟨_, exec_of_passing (k := .describe) rfl (by simp [maxBody]) (by rw [hrole]; rfl) nofun (.inr rfl) hfree, ?_⟩
  exact reply_afterTaking s 0 .describe tag .ok _

/-- Settles O22: the body's last byte is the one that makes the sum 0; with every table loaded the bytes are evaluated. -/
theorem describeSumsToZero : Obligations.DescribeSumsToZero := by
  unfold Obligations.DescribeSumsToZero
  refine ⟨fun s tag hrole hfree => ?_, fun s tag hrole hfree hstart => ?_⟩
  · obtain ⟨t, h, hreply⟩ := exec_describe tag hrole hfree
    refine ⟨t, _, h, hreply, integrityByte_sum _, by simp [describeFront_length], ?_⟩
    rw [List.getElem?_append_left (by rw [describeFront_length]; decide)]
    rfl
  · obtain ⟨t, h, hreply⟩ := exec_describe tag hrole hfree
    refine ⟨t, h, ?_⟩
    have hfront : s.describeFront = [0x31, 0x0C, 0x16, 0x24, 0x01, 0x18, 0x00, 0x08, 0x08, 0xFF, 0x03, 0x18, 0x30, 0x3F, 0xA5] := by
      rw [State.describeFront, hstart]; decide
    rw [hfront] at hreply
    exact hreply

/-! ### Rates, timers and the notice mask (R43, R44, R167, R170, R173) -/

/-- A load that sets fields of the state and replies leaves the state with those fields, answered at its port. -/
theorem reply_with_fields {s u v : State} {p : Port} {k : Kind} {tag : Byte} (hv : v.port p = s.port p)
    (hu : u = v.setPort p (waitingPort (s.port p) k tag)) (status : Status) (fields : List Byte) :
    u.reply p status fields = v.setPort p (repliedPort (v.port p) k tag status fields) := by
  rw [hu, ← hv]
  exact reply_afterTaking v p k tag status fields

theorem unlessSaving_idle {s : State} (h : s.save = none) (p : Port) (load : State) : s.unlessSaving p load = load := by
  simp [State.unlessSaving, h]

theorem unlessSaving_busy {s : State} (h : s.save ≠ none) (p : Port) (load : State) :
    s.unlessSaving p load = s.refuse p .busy {} := by
  simp [State.unlessSaving, Option.isSome_iff_ne_none.2 h]

/-- Settles O44: the rates are read clamped, and replace the table before the reply; a save that runs is looked at first. -/
theorem loadRatesClampAndReplace : Obligations.LoadRatesClampAndReplace := by
  unfold Obligations.LoadRatesClampAndReplace
  intro s tag ha
  have ha' {k : Kind} (hk : maySend .uplink k = true) : Admitted s 0 k := admitted_of_office ha hk
  refine ⟨fun a0 a1 b0 b1 c0 c1 d0 d1 hs => ?_, fun a0 a1 b0 b1 c0 c1 d0 d1 e0 e1 f0 f1 g0 g1 h0 h1 hs => ?_,
    fun body hb hs => ⟨?_, ?_⟩⟩
  · intro rates
    have hrun : takeLoadTaxes 0 [a0, a1, b0, b1, c0, c1, d0, d1] (afterTaking s 0 .loadTaxes tag) =
        { s with taxRates := rates }.setPort 0 (repliedPort (s.port 0) .loadTaxes tag .ok (rates.toList.flatMap num2)) := by
      refine (unlessSaving_idle (s := afterTaking s 0 .loadTaxes tag) hs 0 _).trans ?_
      exact reply_with_fields (s := s) (v := { s with taxRates := rates }) rfl rfl .ok _
    exact ⟨_, exec_of_admitted (k := .loadTaxes) rfl (by simp [maxBody]) (ha' rfl) nofun, by rw [ownerOf, hrun]; rfl, hrun⟩
  · intro rates
    have hrun : takeLoadGroups 0 [a0, a1, b0, b1, c0, c1, d0, d1, e0, e1, f0, f1, g0, g1, h0, h1]
        (afterTaking s 0 .loadGroups tag) = { s with serviceRates := rates }.setPort 0
          (repliedPort (s.port 0) .loadGroups tag .ok (rates.toList.flatMap num2)) := by
      refine (unlessSaving_idle (s := afterTaking s 0 .loadGroups tag) hs 0 _).trans ?_
      exact reply_with_fields (s := s) (v := { s with serviceRates := rates }) rfl rfl .ok _
    exact ⟨_, exec_of_admitted (k := .loadGroups) rfl (by simp [maxBody]) (ha' rfl) nofun, by rw [ownerOf, hrun]; rfl, hrun⟩
  · refine ⟨_, exec_of_admitted (k := .loadTaxes) rfl hb (ha' rfl) nofun, ?_⟩
    exact (unlessSaving_busy (s := afterTaking s 0 .loadTaxes tag) hs 0 _).trans (refuse_afterTaking s 0 .loadTaxes tag .busy {})
  · refine ⟨_, exec_of_admitted (k := .loadGroups) rfl hb (ha' rfl) nofun, ?_⟩
    exact (unlessSaving_busy (s := afterTaking s 0 .loadGroups tag) hs 0 _).trans (refuse_afterTaking s 0 .loadGroups tag .busy {})

/-- Settles O47: the values are read clamped, and take effect before the reply. -/
theorem timersAndMaskTakeEffect : Obligations.TimersAndMaskTakeEffect := by
  unfold Obligations.TimersAndMaskTakeEffect
  refine ⟨fun s tag h0 h1 a i0 i1 b ha hs => ?_, fun s tag m ha hm => ?_, fun s tag m ha hm => ?_⟩
  · intro times
    have hread : readTimers [h0, h1, a, i0, i1, b] = some times := by
      have hbump : clamp 0 30 b.toNat = min b.toNat 30 := Nat.zero_max _
      simp only [readTimers, hbump]
      rfl
    have hrun : takeLoadTimers 0 [h0, h1, a, i0, i1, b] (afterTaking s 0 .loadTimers tag) =
        { s with timers := times }.setPort 0 (repliedPort (s.port 0) .loadTimers tag .ok (timerBytes times)) := by
      refine (unlessSaving_idle (s := afterTaking s 0 .loadTimers tag) hs 0 _).trans ?_
      rw [hread]
      exact reply_with_fields (s := s) (v := { s with timers := times }) rfl rfl .ok _
    exact ⟨_, exec_of_admitted (k := .loadTimers) rfl (by simp [maxBody]) (admitted_of_office ha rfl) nofun,
      by rw [ownerOf, hrun]; rfl, hrun⟩
  · have hread : readMask [m] = some m := if_neg (by rw [hm]; decide)
    have hrun : takeNoticeMask 0 [m] (afterTaking s 0 .noticeMask tag) =
        { s with mask := m }.setPort 0 (repliedPort (s.port 0) .noticeMask tag .ok [m]) := by
      simp only [takeNoticeMask, hread]
      exact reply_with_fields (s := s) (v := { s with mask := m }) rfl rfl .ok _
    exact ⟨_, exec_of_admitted (k := .noticeMask) rfl (by simp [maxBody]) (admitted_of_office ha rfl) nofun,
      by rw [ownerOf, hrun]; rfl, hrun⟩
  · refine ⟨_, exec_of_admitted (k := .noticeMask) rfl (by simp [maxBody]) (admitted_of_office ha rfl) nofun, ?_⟩
    have hread : readMask [m] = none := if_pos hm
    change takeNoticeMask _ _ _ = _
    simp only [takeNoticeMask, hread]
    exact refuse_afterTaking s 0 .noticeMask tag .parse {}

end Sys2Proof.Frames
end

section
/-! PROOFS. Part reset, start-up, the configuration flash and saving. O13 to O15, O56. -/

namespace Sys2Proof.Office

-- One theorem after another: as many checks at once take a thread each.
set_option Elab.async false

open Sys2Proof Sys2Proof.Machine Sys2Proof.Statements Sys2Proof.Invariants Sys2Proof.Frames

/-! ### Part reset (R161, R173) -/

theorem inPlaceOf_eq_nodePlace (node bytes : List Byte) : inPlaceOf node bytes = nodePlace node bytes := inPlaceOf_eq node bytes

theorem erasedInPart_partOfChain (flash left : List Byte) : PartOfChain flash left (erasedInPart flash left) :=
  ⟨erasedInPart_length flash left, fun _ _ h => erasedInPart_getElem? flash left h⟩

theorem role_reset {p : Port} (h : p ≠ 0) : State.reset.role p = .unused := by
  revert p; decide

/-- Settles O13: what the flash is left with depends on the stage of the save that runs, if one does. -/
theorem partResetPutsBlocksBack : Obligations.PartResetPutsBlocksBack := by
  unfold Obligations.PartResetPutsBlocksBack
  have hport (p : Port) : State.reset.port p = LanePort.fresh := by simp [State.port, State.reset]
  refine ⟨fun s left hs => ⟨?_, rfl, rfl, rfl, rfl, rfl, rfl, rfl, rfl, rfl, rfl, rfl, rfl, rfl, rfl, fun p => role_reset,
    fun p => ?_, fun p => ?_, fun c => rfl, slot_reset⟩, fun s left began k node hs hnode => ?_, fun s left began hs => ?_⟩
  · change Host.Outcome.next (s.partReset left) = _
    simp only [State.partReset, State.flashAfterReset, hs]
  · rw [hport]; exact ⟨rfl, rfl, rfl, rfl⟩
  · rw [station_reset]; exact ⟨rfl, rfl, rfl, by simp [State.hold, State.reset]⟩
  · change Host.Outcome.next (s.partReset left) = _
    simp only [State.partReset, State.flashAfterReset, hs, State.flashLeft, hnode, Option.getD_some, inPlaceOf_eq_nodePlace]
  · refine ⟨_, erasedInPart_partOfChain s.flash left, ?_⟩
    change Host.Outcome.next (s.partReset left) = _
    simp only [State.partReset, State.flashAfterReset, hs, State.flashLeft]

/-! ### Loading station entries (R74, R166) -/

@[simp] theorem setStation_station (s : State) (p : Port) : s.setStation p (s.station p) = s := by
  simp [State.setStation, State.station]

theorem unsendNewest_eq (s : State) (q : Port) : ∃ queue sent ack, s.unsendNewest q =
    s.setStation q { s.station q with queue := queue, sent := sent, ackTimer := ack } := by
  unfold State.unsendNewest
  split
  · exact ⟨_, _, _, (setStation_station s q).symm⟩
  · rw [leaveSent_eq, State.mapTicket, State.station_setStation_self, State.setStation_setStation]
    exact ⟨_, _, _, rfl⟩

/-- A window that takes effect changes the queue, the sent list and the ack timer of its station, and nothing else. -/
theorem fitWindow_eq (s : State) (q : Port) : ∃ queue sent ack, s.fitWindow q =
    s.setStation q { s.station q with queue := queue, sent := sent, ackTimer := ack } := by
  unfold State.fitWindow
  generalize List.range ((s.station q).sent.length - (s.station q).window) = l
  induction l generalizing s with
  | nil => exact ⟨_, _, _, (setStation_station s q).symm⟩
  | cons _ l ih =>
    obtain ⟨queue, sent, ack, e⟩ := unsendNewest_eq s q
    obtain ⟨queue', sent', ack', e'⟩ := ih (s.unsendNewest q)
    refine ⟨queue', sent', ack', ?_⟩
    rw [List.foldl_cons, e', e, State.station_setStation_self, State.setStation_setStation]

/-- A station entry that is loaded. -/
theorem loadStation_spec (s : State) (q : Port) (e : StationEntry) : ∃ queue sent ack, s.loadStation (q, e) =
    s.setStation q { loadedStation (s.station q) e with queue := queue, sent := sent, ackTimer := ack } := by
  obtain ⟨queue, sent, ack, h⟩ := fitWindow_eq (s.setStation q (loadedStation (s.station q) e)) q
  refine ⟨queue, sent, ack, ?_⟩
  rw [loadStation_eq, h, State.station_setStation_self, State.setStation_setStation]

theorem loadStation_other (s : State) {q r : Port} (e : StationEntry) (h : r ≠ q) :
    (s.loadStation (q, e)).station r = s.station r := by
  obtain ⟨queue, sent, ack, he⟩ := loadStation_spec s q e
  rw [he, State.station_setStation_other _ h]

/-- The stations are all that a load of station entries changes. -/
theorem loadStations_stations (entries : List (Port × StationEntry)) (s : State) :
    entries.foldl State.loadStation s = { s with stations := (entries.foldl State.loadStation s).stations } := by
  induction entries generalizing s with
  | nil => rfl
  | cons e entries ih =>
    obtain ⟨queue, sent, ack, he⟩ := loadStation_spec s e.1 e.2
    rw [List.foldl_cons, ih, show s.loadStation e = s.loadStation (e.1, e.2) from rfl, he]
    rfl

theorem loadStations_other (entries : List (Port × StationEntry)) (s : State) {q : Port} (h : ∀ x ∈ entries, x.1 ≠ q) :
    (entries.foldl State.loadStation s).station q = s.station q := by
  induction entries generalizing s with
  | nil => rfl
  | cons e entries ih =>
    rw [List.foldl_cons, ih _ fun x hx => h x (List.mem_cons_of_mem _ hx)]
    exact loadStation_other s e.2 (h e List.mem_cons_self).symm

/-- The last entry of a station decides its figures. -/
theorem loadStations_last (front : List (Port × StationEntry)) (q : Port) (e : StationEntry) (rest : List (Port × StationEntry))
    (s : State) (h : ∀ x ∈ rest, x.1 ≠ q) :
    let x := ((front ++ (q, e) :: rest).foldl State.loadStation s).station q
    x.alternate = e.alternate ∧ x.balance = e.balance ∧ x.window = e.window := by
  rw [List.foldl_append, List.foldl_cons, loadStations_other rest _ h]
  obtain ⟨queue, sent, ack, he⟩ := loadStation_spec (front.foldl State.loadStation s) q e
  rw [he, State.station_setStation_self]
  exact ⟨rfl, rfl, rfl⟩

/-! ### Start-up (R161 to R164) -/

theorem setRoles_portTable (entries : List (Port × PortRole)) (s : State) :
    entries.foldl (fun acc e => acc.setRole e.1 e.2) s =
      { s with portTable := (entries.foldl (fun acc e => acc.setRole e.1 e.2) s).portTable } := by
  induction entries generalizing s with
  | nil => rfl
  | cons e entries ih => rw [List.foldl_cons, ih]; rfl

theorem loadItems_items (entries : List (Nat × Option Item)) (s : State) :
    entries.foldl (fun acc e => acc.setItem e.1 e.2) s =
      { s with items := (entries.foldl (fun acc e => acc.setItem e.1 e.2) s).items } := by
  induction entries generalizing s with
  | nil => rfl
  | cons e entries ih => rw [List.foldl_cons, ih]; rfl

/-- The walk at a good node that is not the last. -/
theorem exec_walk_load {s : State} (hs : s.phase = .starting) {load : NodeLoad} {next : Nat}
    (hr : readNode s.flash s.walkAt = some (load, next)) (hl : load ≠ .last) :
    exec (.configWalkNode .contents) s = .next { (s.loadNode load).markLoaded load with walkAt := next } := by
  change Host.Outcome.next (if s.phase = .starting then s.walkNode .contents else s) = _
  rw [if_pos hs]
  unfold State.walkNode
  rw [hr]
  cases load with
  | last => exact absurd rfl hl
  | _ => rfl

/-- Settles O14: node by node what is loaded, and the three ways in which the walk ends. -/
theorem configWalkLoadsOrEnds : Obligations.ConfigWalkLoadsOrEnds := by
  unfold Obligations.ConfigWalkLoadsOrEnds
  intro s hs
  refine ⟨fun rates next hr => exec_walk_load hs hr nofun, fun rates next hr => exec_walk_load hs hr nofun,
    fun times next hr => exec_walk_load hs hr nofun, fun entries next hr => ?_, fun entries next hr => ?_,
    fun entries next hr => ?_, fun read hend => ?_⟩
  · rw [exec_walk_load hs hr nofun, State.loadNode, setRoles_portTable]; rfl
  · rw [exec_walk_load hs hr nofun, State.loadNode, State.loadItems, loadItems_items]; rfl
  · refine ⟨_, exec_walk_load hs hr nofun, ?_, fun front q e rest he hrest => ?_, fun q hq => ?_⟩
    · rw [State.loadNode, loadStations_stations]; rfl
    · subst he; exact loadStations_last front q e rest s hrest
    · exact loadStations_other entries s hq
  · change Host.Outcome.next (if s.phase = .starting then s.walkNode read else s) = _
    rw [if_pos hs]
    have hfinish : s.walkNode read = s.finishStartUp := by
      unfold State.walkNode
      rcases hend with rfl | h | ⟨next, h⟩
      · cases readNode s.flash s.walkAt <;> rfl
      · rw [h]; cases read <;> rfl
      · rw [h]; cases read <;> rfl
    rw [hfinish]
    rfl

/-! ### Nodes that are read back (R43, R44, R167) -/

theorem read2_rate {n : Nat} (h : n ≤ 3000) : min (read2 (BitVec.ofNat 8 n) (BitVec.ofNat 8 (n / 256))) 3000 = n := by
  rw [read2_num2 (by omega), min_eq_left h]

theorem readTaxes_rateBytes (rates : Vector Nat 4) (h : ∀ c : Fin 4, rates[c.val] ≤ 3000) :
    readTaxes (rateBytes rates.toList) = some rates := by
  obtain ⟨⟨l⟩, hl⟩ := rates
  match l, hl with
  | [a, b, c, d], _ =>
    have ha := read2_rate (n := a) (h 0)
    have hb := read2_rate (n := b) (h 1)
    have hc := read2_rate (n := c) (h 2)
    have hd := read2_rate (n := d) (h 3)
    change some #v[min (read2 _ _) 3000, min (read2 _ _) 3000, min (read2 _ _) 3000, min (read2 _ _) 3000] = _
    rw [ha, hb, hc, hd]

theorem readGroups_rateBytes (rates : Vector Nat 8) (h : ∀ c : Fin 8, rates[c.val] ≤ 3000) :
    readGroups (rateBytes rates.toList) = some rates := by
  obtain ⟨⟨l⟩, hl⟩ := rates
  match l, hl with
  | [a, b, c, d, e, f, g, j], _ =>
    have ha := read2_rate (n := a) (h 0)
    have hb := read2_rate (n := b) (h 1)
    have hc := read2_rate (n := c) (h 2)
    have hd := read2_rate (n := d) (h 3)
    have he := read2_rate (n := e) (h 4)
    have hf := read2_rate (n := f) (h 5)
    have hg := read2_rate (n := g) (h 6)
    have hj := read2_rate (n := j) (h 7)
    change some #v[min (read2 _ _) 3000, min (read2 _ _) 3000, min (read2 _ _) 3000, min (read2 _ _) 3000,
      min (read2 _ _) 3000, min (read2 _ _) 3000, min (read2 _ _) 3000, min (read2 _ _) 3000] = _
    rw [ha, hb, hc, hd, he, hf, hg, hj]

theorem clamp_of_mem {lo hi n : Nat} (h1 : lo ≤ n) (h2 : n ≤ hi) : clamp lo hi n = n := by
  rw [clamp, min_eq_left h2, max_eq_right h1]

theorem toNat_ofNat_byte {n : Nat} (h : n < 256) : (BitVec.ofNat 8 n).toNat = n := by
  rw [BitVec.toNat_ofNat, Nat.mod_eq_of_lt h]

theorem readTimers_timerBytes {t : Timers} (h1 : 10 ≤ t.hold) (h2 : t.hold ≤ 600) (a1 : 5 ≤ t.ack) (a2 : t.ack ≤ 100)
    (i1 : 5 ≤ t.image) (i2 : t.image ≤ 300) (b2 : t.bump ≤ 30) : readTimers (timerBytes t) = some t := by
  have hhold : read2 _ _ = t.hold := read2_num2 (by omega)
  have himage : read2 _ _ = t.image := read2_num2 (by omega)
  have hack := toNat_ofNat_byte (n := t.ack) (by omega)
  have hbump := toNat_ofNat_byte (n := t.bump) (by omega)
  change some (Timers.mk (clamp 10 600 (read2 _ _)) (clamp 5 100 (BitVec.ofNat 8 t.ack).toNat)
    (clamp 5 300 (read2 _ _)) (clamp 0 30 (BitVec.ofNat 8 t.bump).toNat)) = some t
  rw [hhold, himage, hack, hbump, clamp_of_mem h1 h2, clamp_of_mem a1 a2, clamp_of_mem i1 i2, clamp_of_mem (Nat.zero_le _) b2]

theorem rateBytes_length (rates : List Nat) : (rateBytes rates).length = 2 * rates.length := by
  induction rates with
  | nil => rfl
  | cons r rates ih => simp only [rateBytes, List.flatMap_cons, List.length_append] at ih ⊢; rw [ih]; simp [num2]; omega

/-- Settles O15: a node written whole is judged by its body, and each body reads back the figures that it was made of. -/
theorem savedNodesReadBack : Obligations.SavedNodesReadBack := by
  unfold Obligations.SavedNodesReadBack
  intro before after hfit
  have hnode (id : Nat) (body : List Byte) (hid : 1 ≤ id ∧ id ≤ 7) (hlen : body.length ≤ 95) :=
    readNode_flashNode before after id body hid (by omega) (by omega)
  refine ⟨fun rates h => ?_, fun rates h => ?_, fun t h1 h2 a1 a2 i1 i2 b2 => ?_, ?_⟩
  · have hlen : (rateBytes rates.toList).length = 8 := by simp [rateBytes_length]
    rw [hnode 3 _ (by decide) (by omega), readNodeBody, readTaxes_rateBytes rates h, hlen]
    rfl
  · have hlen : (rateBytes rates.toList).length = 16 := by simp [rateBytes_length]
    rw [hnode 2 _ (by decide) (by omega), readNodeBody, readGroups_rateBytes rates h, hlen]
    rfl
  · have hlen : (timerBytes t).length = 6 := by simp [timerBytes, num1, num2]
    rw [hnode 5 _ (by decide) (by omega), readNodeBody, readTimers_timerBytes h1 h2 a1 a2 i1 i2 b2, hlen]
    rfl
  · rw [hnode 7 [] (by decide) (by simp)]
    rfl

/-! ### Saving (R173, R174) -/

/-- Cuts a list into pieces of `n`, the last holding the rest; `fuel` bounds the number of pieces. -/
def inPieces {α : Type} (n : Nat) : Nat → List α → List (List α)
  | 0, _ => []
  | _ + 1, [] => []
  | fuel + 1, x :: rest => (x :: rest).take n :: inPieces n fuel ((x :: rest).drop n)

theorem inSixtyFours_eq {α : Type} (fuel : Nat) (l : List α) : inSixtyFours fuel l = inPieces 64 fuel l := by
  induction fuel generalizing l with
  | zero => rfl
  | succ fuel ih => cases l with
    | nil => rfl
    | cons x l => rw [inSixtyFours, inPieces, ih]

/-- The pieces make up the list, each holds 1 to `n`, and all but the last hold `n`. -/
theorem inPieces_spec {α : Type} {n : Nat} (hn : 1 ≤ n) (fuel : Nat) (l : List α) (h : l.length ≤ fuel) :
    (inPieces n fuel l).flatten = l ∧ (∀ g ∈ inPieces n fuel l, 1 ≤ g.length ∧ g.length ≤ n) ∧
    ∀ g ∈ (inPieces n fuel l).dropLast, g.length = n := by
  induction fuel generalizing l with
  | zero => rw [List.length_eq_zero_iff.1 (Nat.le_zero.1 h)]; exact ⟨rfl, nofun, nofun⟩
  | succ fuel ih =>
    cases l with
    | nil => exact ⟨rfl, nofun, nofun⟩
    | cons x rest =>
      have hlen : ((x :: rest).drop n).length ≤ fuel := by
        rw [List.length_drop]; simp only [List.length_cons] at h ⊢; omega
      obtain ⟨hflat, hsize, hfull⟩ := ih _ hlen
      rw [inPieces]
      refine ⟨?_, fun g hg => ?_, fun g hg => ?_⟩
      · rw [List.flatten_cons, hflat, List.take_append_drop]
      · rcases List.mem_cons.1 hg with rfl | hg
        · simp only [List.length_take, List.length_cons]; omega
        · exact hsize g hg
      · cases hrest : inPieces n fuel ((x :: rest).drop n) with
        | nil => rw [hrest] at hg; cases hg
        | cons y ys =>
          rw [hrest, List.dropLast_cons_of_ne_nil (List.cons_ne_nil _ _)] at hg
          rcases List.mem_cons.1 hg with rfl | hg
          · have hne : (x :: rest).drop n ≠ [] := by
              intro e
              rw [e] at hrest
              cases fuel <;> cases hrest
            have := List.length_pos_iff.2 hne
            rw [List.length_drop] at this
            rw [List.length_take]
            omega
          · exact hfull g (hrest ▸ hg)

/-- What a save's last steps come to: a fault or a time-out leaves the flash as they say, and the save is over. -/
theorem endSave_eq (s : State) (flash : List Byte) (ok : Bool) :
    { s with flash := flash }.endSave ok = { s with flash := flash, save := none }.raise (.saveDone ok) := rfl

theorem failSave_eq {s : State} {v : Save} (h : s.save = some v) (left : List Byte) :
    s.failSave left = { s with flash := s.flashLeft v.stage left, save := none }.raise (.saveDone false) := by
  unfold State.failSave
  rw [h]
  rfl

theorem timeOutSave_eq {s : State} {v : Save} (h : s.save = some v) (left : List Byte) :
    s.timeOutSave left = { s with
      now := max s.now (v.began + 500), flash := s.flashLeft v.stage left, save := none }.raise (.saveDone false) := by
  unfold State.timeOutSave
  rw [h]
  exact failSave_eq (s := s.reach _) h left

/-- Settles O56: the stage of the save decides what each command does; the chain is read off its definition. -/
theorem saveWritesTheChain : Obligations.SaveWritesTheChain := by
  unfold Obligations.SaveWritesTheChain
  intro s
  refine ⟨fun tag ha hs => ?_, ?_, fun began hs => ⟨fun ht => ?_, fun ht => ?_⟩, fun began k node hs hnode => ?_,
    fun began left hs => ?_⟩
  · have hrun : takeSaveConfig 0 [] (afterTaking s 0 .saveConfig tag) =
        { s with save := some { stage := .erasing, began := s.now } }.setPort 0
          (repliedPort (s.port 0) .saveConfig tag .accepted []) := by
      have hsave : (afterTaking s 0 .saveConfig tag).save = none := hs
      simp only [takeSaveConfig, emptyBody, if_true, hsave]
      exact reply_with_fields (s := s) (v := { s with save := some { stage := .erasing, began := s.now } }) rfl rfl .accepted []
    exact ⟨_, exec_of_admitted (k := .saveConfig) rfl (by simp [maxBody]) (admitted_of_office ha rfl) nofun, hrun⟩
  · obtain ⟨hflat, hsize, hfull⟩ := inPieces_spec (n := 64) (by decide) s.items.length s.items le_rfl
    refine ⟨stationPorts, inPieces 64 s.items.length s.items, by decide, hflat, hsize, hfull, ?_⟩
    rw [State.saveChain, State.itemNodes, inSixtyFours_eq]
    rfl
  · change Host.Outcome.next s.eraseDone = _
    simp only [State.eraseDone, hs, State.inTime_iff, saveLimit, Config.flashLimit, if_pos ht]
  · change Host.Outcome.next s.eraseDone = _
    simp only [State.eraseDone, hs, State.inTime_iff, saveLimit, Config.flashLimit, if_neg (Nat.not_le.2 ht)]
  · have hverified (read : Option (List Byte)) (ht : s.now ≤ began + 500) :
        exec (.saveNodeVerified read) s = .next (s.nodeRead k read) := by
      change Host.Outcome.next (s.nodeVerified read) = _
      simp only [State.nodeVerified, hs, State.inTime_iff, saveLimit, Config.flashLimit, if_pos ht]
    have hlate (read : Option (List Byte)) (ht : began + 500 < s.now) : exec (.saveNodeVerified read) s = .next s := by
      change Host.Outcome.next (s.nodeVerified read) = _
      simp only [State.nodeVerified, hs, State.inTime_iff, saveLimit, Config.flashLimit, if_neg (Nat.not_le.2 ht)]
    refine ⟨fun hk ht => ?_, fun hk ht => ?_, fun read hread ht => ?_, fun read hread => ?_, hlate, fun left => ?_,
      fun left => ?_, fun left n hn => ?_⟩
    · rw [hverified none ht]
      simp only [State.nodeRead, hnode, Option.map_none, Option.getD_none, ne_eq, not_true, if_false, if_pos hk]
    · rw [hverified none ht]
      simp only [State.nodeRead, hnode, Option.map_none, Option.getD_none, ne_eq, not_true, if_false,
        if_neg (Nat.not_lt.2 hk.ge), endSave_eq]
    · rw [hverified (some read) ht]
      simp only [State.nodeRead, hnode, Option.map_some, Option.getD_some, inPlaceOf_eq_nodePlace, ne_eq, hread,
        not_false_eq_true, if_true, endSave_eq]
    · by_cases ht : s.now ≤ began + 500
      · rw [hverified none ht, hverified (some read) ht]
        simp only [State.nodeRead, Option.map_none, Option.map_some, Option.getD_none, Option.getD_some, hnode,
          inPlaceOf_eq_nodePlace, hread]
      · rw [hlate none (Nat.not_le.1 ht), hlate (some read) (Nat.not_le.1 ht)]
    · change Host.Outcome.next (s.failSave left) = _
      simp only [failSave_eq hs, State.flashLeft, hnode, Option.getD_some, inPlaceOf_eq_nodePlace]
    · change Host.Outcome.next (s.timeOutSave left) = _
      simp only [timeOutSave_eq hs, State.flashLeft, hnode, Option.getD_some, inPlaceOf_eq_nodePlace]
    · rw [← inPlaceOf_eq_nodePlace]
      exact flashByte_after_place s.flash node left hn
  · refine ⟨_, erasedInPart_partOfChain s.flash left, ?_, ?_⟩
    · change Host.Outcome.next (s.failSave left) = _
      simp only [failSave_eq hs, State.flashLeft]
    · change Host.Outcome.next (s.timeOutSave left) = _
      simp only [timeOutSave_eq hs, State.flashLeft]

end Sys2Proof.Office
end

section
/-! PROOFS. Requests on a tab at its READY slot with nobody waiting: SPLIT, CANCEL SPLIT, TENDER, RESUME, the judgements, and the end of a
hold. O23, O26, O28 to O33. -/

namespace Sys2Proof.AtSlot

-- One theorem after another: as many checks at once take a thread each.
set_option Elab.async false

open Sys2Proof Sys2Proof.Machine Sys2Proof.Statements Sys2Proof.Invariants Sys2Proof.Frames Sys2Proof.SplitArithmetic

/-! ### A request that is taken and reaches the cache -/

/-- What a till asks of a tab is judged and goes to the cache; READ TAB compares the group first (R1, R17, R100). -/
theorem ownerOf_tabRequest {k : Kind} {body : List Byte} {tab : Nat} {request : TabRequest}
    (h : tabRequestOf k body = some (tab, request)) (p : Port) (s : State) :
    ownerOf k p body s = match (if k = .readTab then s.judgeReadTaken p tab else s.judgeTaken p tab) with
      | some status => s.refuse p status (requestDetail request)
      | none => s.cacheRequest tab { port := p, request := request } := by
  cases k with
  | order =>
    obtain ⟨⟨t, rush, lines⟩, hread, e⟩ := Option.bind_eq_some_iff.1 h
    split at e
    · cases e
    · rename_i h0; cases e; simp only [ownerOf, takeOrder, hread, if_neg h0]; rfl
  | void =>
    obtain ⟨⟨t, line⟩, hread, e⟩ := Option.map_eq_some_iff.1 h
    cases e; simp only [ownerOf, takeVoid, hread]; rfl
  | readTab =>
    obtain ⟨⟨t, page⟩, hread, e⟩ := Option.map_eq_some_iff.1 h
    cases e; simp only [ownerOf, takeReadTab, hread]; rfl
  | split =>
    obtain ⟨⟨t, spec⟩, hread, e⟩ := Option.map_eq_some_iff.1 h
    cases e; simp only [ownerOf, takeSplit, hread]; rfl
  | cancelSplit =>
    obtain ⟨t, hread, e⟩ := Option.map_eq_some_iff.1 h
    cases e; simp only [ownerOf, takeCancelSplit, hread]; rfl
  | tender =>
    obtain ⟨f, hread, e⟩ := Option.map_eq_some_iff.1 h
    cases e; simp only [ownerOf, takeTender, hread]; rfl
  | resume =>
    obtain ⟨t, hread, e⟩ := Option.map_eq_some_iff.1 h
    cases e; simp only [ownerOf, takeResume, hread]; rfl
  | _ => cases h

theorem judgeTaken_passes {s : State} {p : Port} {tab : Nat} (htab : isTab tab = true) (hfree : (s.dir tab).state ≠ .free)
    (hdamaged : (s.dir tab).state ≠ .damaged) (hgroup : s.sameGroup p tab = true) :
    s.judgeTaken p tab = none ∧ s.judgeReadTaken p tab = none := by
  simp [State.judgeTaken, State.judgeReadTaken, htab, hfree, hdamaged, hgroup]

theorem not_taken_of_tabRequest {k : Kind} {body : List Byte} {x : Nat × TabRequest} (h : tabRequestOf k body = some x) :
    k ≠ .taken := by
  rintro rfl; cases h

/-- A request judged good goes to the cache. -/
theorem exec_reachesCache {s : State} {p : Port} {k : Kind} {tag : Byte} {body : List Byte} {c : Instr} {tab : Nat}
    {request : TabRequest} (hc : frameCommand p tag body k = some c) (hb : body.length ≤ maxBody) (ha : Admitted s p k)
    (hreq : tabRequestOf k body = some (tab, request)) (htab : isTab tab = true) (hfree : (s.dir tab).state ≠ .free)
    (hdamaged : (s.dir tab).state ≠ .damaged) (hgroup : s.sameGroup p tab = true) :
    exec c s = .next ((afterTaking s p k tag).cacheRequest tab { port := p, request := request }) := by
  obtain ⟨h1, h2⟩ := judgeTaken_passes (s := afterTaking s p k tag) htab hfree hdamaged hgroup
  rw [exec_of_admitted hc hb ha (not_taken_of_tabRequest hreq), ownerOf_tabRequest hreq, h1, h2, ite_self]

/-- The switch as a request finds it that executes as soon as it is taken: its slot is most recent. -/
def executing (s : State) (p : Port) (k : Kind) (tag : Byte) (i : SlotId) : State := (afterTaking s p k tag).touch i

theorem executing_port (s : State) (p : Port) (k : Kind) (tag : Byte) (i : SlotId) :
    (executing s p k tag i).port p = waitingPort (s.port p) k tag := afterTaking_port s p k tag

/-- A till's request at its tab's READY slot with nobody waiting executes at once; a SPLIT when the check has passed. -/
theorem exec_atReadySlot {s : State} {p : Port} {k : Kind} {tag : Byte} {body : List Byte} {c : Instr} {tab : Nat}
    {request : TabRequest} {i : SlotId} {r : TabRecord} (hc : frameCommand p tag body k = some c)
    (hb : body.length ≤ maxBody) (ha : Admitted s p k) (hreq : tabRequestOf k body = some (tab, request))
    (hat : AtReadySlot s p tab i r) (hfree : (s.dir tab).state ≠ .free) (hdamaged : (s.dir tab).state ≠ .damaged)
    (hcheck : request.isSplit = true → s.check = .passed) :
    exec c s = .next (perform i p request (executing s p k tag i)) := by
  obtain ⟨htab, hgroup, -⟩ := id hat
  have hat' : AtReadySlot (afterTaking s p k tag) p tab i r := hat
  rw [exec_reachesCache hc hb ha hreq htab hfree hdamaged hgroup, cacheRequest_atReadySlot hat' request hcheck]
  rfl

/-- The reply of a request that executes at once, whatever else it has changed but the ports. -/
theorem reply_executing {s u : State} {p : Port} {k : Kind} {tag : Byte} {i : SlotId}
    (hu : u.ports = (executing s p k tag i).ports) (status : Status) (fields : List Byte) :
    u.reply p status fields = u.setPort p (repliedPort (s.port p) k tag status fields) := by
  refine reply_at_waiting ?_ status fields
  have : u.port p = (executing s p k tag i).port p := by simp only [State.port, hu]
  rw [this, executing_port]

/-- The ports after such a reply. -/
theorem ports_executing {s u : State} {p : Port} {k : Kind} {tag : Byte} {i : SlotId}
    (hu : u.ports = (executing s p k tag i).ports) (status : Status) (fields : List Byte) :
    RepliedAt s (u.reply p status fields) p k tag status fields ∧ OtherPortsKept s (u.reply p status fields) p := by
  rw [reply_executing hu]
  refine ⟨State.port_setPort_self _ _ _, fun q hq => ?_⟩
  rw [State.port_setPort_other _ hq]
  have : u.port q = (executing s p k tag i).port q := by simp only [State.port, hu]
  exact this.trans (afterTaking_port_other s hq k tag)

/-! ### The judgements (R1, R17, R100, R102) -/

theorem judgeState_table (s : State) (p : Port) (t : Nat) :
    ((s.dir t).state = .opened →
      s.judgeState .orderOrVoid p t = none ∧
      s.judgeState .split p t = (if s.holdsAnother p t then some .tabState else none) ∧
      s.judgeState .cancelOrTender p t = some .notHolder ∧ s.judgeState .resume p t = some .tabState ∧
      s.judgeState .readTab p t = none) ∧
    ((s.dir t).state = .tendering → (s.dir t).holder = some p →
      s.judgeState .orderOrVoid p t = some .tabState ∧ s.judgeState .split p t = none ∧
      s.judgeState .cancelOrTender p t = none ∧ s.judgeState .resume p t = none ∧ s.judgeState .readTab p t = none) ∧
    ((s.dir t).state = .tendering → (∃ q, (s.dir t).holder = some q ∧ q ≠ p) →
      s.judgeState .orderOrVoid p t = some .tabHeld ∧ s.judgeState .split p t = some .tabHeld ∧
      s.judgeState .cancelOrTender p t = some .tabHeld ∧ s.judgeState .resume p t = some .tabHeld ∧
      s.judgeState .readTab p t = none) ∧
    ((s.dir t).state = .tendering → (s.dir t).holder = none →
      s.judgeState .orderOrVoid p t = some .tabState ∧ s.judgeState .split p t = some .notHolder ∧
      s.judgeState .cancelOrTender p t = some .notHolder ∧
      s.judgeState .resume p t = (if s.holdsAnother p t then some .tabState else none) ∧
      s.judgeState .readTab p t = none) ∧
    ((s.dir t).state = .closed →
      s.judgeState .orderOrVoid p t = some .tabState ∧ s.judgeState .split p t = some .tabState ∧
      s.judgeState .cancelOrTender p t = some .tabState ∧ s.judgeState .resume p t = some .tabState ∧
      s.judgeState .readTab p t = none) := by
  refine ⟨fun h => ?_, fun h hq => ?_, fun h hq => ?_, fun h hq => ?_, fun h => ?_⟩
  · simp [State.judgeState, h]
  · simp [State.judgeState, h, State.judgeTendering, hq]
  · obtain ⟨q, hq, hne⟩ := hq
    simp [State.judgeState, h, State.judgeTendering, hq, hne]
  · simp [State.judgeState, h, State.judgeTendering, hq]
  · simp [State.judgeState, h]

/-- A request that R102 refuses at its slot is answered with that status. -/
theorem perform_refused {s : State} {p : Port} {k : Kind} {body : List Byte} {tab : Nat} {request : TabRequest} {i : SlotId}
    {row : RequestRow} {status : Status} (hreq : tabRequestOf k body = some (tab, request)) (hrow : rowOf k = some row)
    (hrole : (s.role p).isTill = true) (hgroup : s.sameGroup p tab = true) (hjudge : s.judgeState row p tab = some status) :
    perform i p request s = s.refuse p status (requestDetail request) := by
  have hexec : s.judgeExecution row p tab = some status := by rw [State.judgeExecution, if_pos hgroup, hjudge]
  cases k with
  | order =>
    obtain ⟨⟨t, rush, lines⟩, hread, e⟩ := Option.bind_eq_some_iff.1 hreq
    split at e
    · cases e
    · rename_i h0; cases e; cases hrow; simp only [perform, if_neg h0, performOrder, hexec]; rfl
  | void =>
    obtain ⟨⟨t, line⟩, hread, e⟩ := Option.map_eq_some_iff.1 hreq
    cases e; cases hrow; simp only [perform, performVoid, hexec]; rfl
  | readTab =>
    obtain ⟨⟨t, page⟩, hread, e⟩ := Option.map_eq_some_iff.1 hreq
    have huplink : s.role p ≠ .uplink := fun hu => by rw [hu] at hrole; cases hrole
    cases e; cases hrow; simp only [perform, performReadTab, State.judgeReadTab, if_neg huplink, hexec]; rfl
  | split =>
    obtain ⟨⟨t, spec⟩, hread, e⟩ := Option.map_eq_some_iff.1 hreq
    cases e; cases hrow; simp only [perform, performSplit, hexec]; rfl
  | cancelSplit =>
    obtain ⟨t, hread, e⟩ := Option.map_eq_some_iff.1 hreq
    cases e; cases hrow; simp only [perform, performCancelSplit, hexec]; rfl
  | tender =>
    obtain ⟨f, hread, e⟩ := Option.map_eq_some_iff.1 hreq
    cases e; cases hrow; simp only [perform, performTender, hexec]; rfl
  | resume =>
    obtain ⟨t, hread, e⟩ := Option.map_eq_some_iff.1 hreq
    cases e; cases hrow; simp only [perform, performResume, hexec]; rfl
  | _ => cases hreq

theorem isSplit_of_tabRequest {k : Kind} {body : List Byte} {tab : Nat} {request : TabRequest}
    (h : tabRequestOf k body = some (tab, request)) (hs : request.isSplit = true) : k = .split := by
  cases k with
  | split => rfl
  | order =>
    obtain ⟨x, -, e⟩ := Option.bind_eq_some_iff.1 h
    split at e <;> cases e
    cases hs
  | void => obtain ⟨x, -, e⟩ := Option.map_eq_some_iff.1 h; cases e; cases hs
  | readTab => obtain ⟨x, -, e⟩ := Option.map_eq_some_iff.1 h; cases e; cases hs
  | cancelSplit => obtain ⟨x, -, e⟩ := Option.map_eq_some_iff.1 h; cases e; cases hs
  | tender => obtain ⟨x, -, e⟩ := Option.map_eq_some_iff.1 h; cases e; cases hs
  | resume => obtain ⟨x, -, e⟩ := Option.map_eq_some_iff.1 h; cases e; cases hs
  | _ => cases h

/-- A body that does not parse is answered PARSE with some detail. -/
theorem ownerOf_parse {k : Kind} {body : List Byte} (hrow : rowOf k ≠ none) (h : tabRequestOf k body = none)
    (horder : k = .order → readOrder body = none) (p : Port) (s : State) :
    ∃ d, ownerOf k p body s = s.refuse p .parse d := by
  cases k with
  | order => exact ⟨_, by simp only [ownerOf, takeOrder, horder rfl]; rfl⟩
  | void => have := Option.map_eq_none_iff.1 h; exact ⟨_, by simp only [ownerOf, takeVoid, this]; rfl⟩
  | readTab => have := Option.map_eq_none_iff.1 h; exact ⟨_, by simp only [ownerOf, takeReadTab, this]; rfl⟩
  | split => have := Option.map_eq_none_iff.1 h; exact ⟨_, by simp only [ownerOf, takeSplit, this]; rfl⟩
  | cancelSplit => have := Option.map_eq_none_iff.1 h; exact ⟨_, by simp only [ownerOf, takeCancelSplit, this]; rfl⟩
  | tender => have := Option.map_eq_none_iff.1 h; exact ⟨_, by simp only [ownerOf, takeTender, this]; rfl⟩
  | resume => have := Option.map_eq_none_iff.1 h; exact ⟨_, by simp only [ownerOf, takeResume, this]; rfl⟩
  | _ => exact absurd rfl hrow

/-- Settles O23: the table is the definition's, row by row; what it refuses is answered at the slot, and what is refused when taken is
answered before the cache is asked. -/
theorem requestJudgementTable : Obligations.RequestJudgementTable := by
  unfold Obligations.RequestJudgementTable
  refine ⟨judgeState_table, ?_, ?_, ?_⟩
  · intro s p k tag body c tab request i r row status hreach hat hcheck hrow hjudge
    obtain ⟨⟨hc, hb, ha, hrole, hreq⟩, htab, hfree, hdamaged, hgroup⟩ := hreach
    have hports := ports_executing (s := s) (p := p) (k := k) (tag := tag) (i := i) (u := executing s p k tag i) rfl
      status (requestDetail request).bytes
    have hrun : perform i p request (executing s p k tag i) = (executing s p k tag i).reply p status (requestDetail request).bytes :=
      perform_refused (s := executing s p k tag i) hreq hrow hrole hgroup hjudge
    refine ⟨_, exec_atReadySlot hc hb ha hreq hat hfree hdamaged fun hs => hcheck (isSplit_of_tabRequest hreq hs), ?_⟩
    rw [hrun]
    refine ⟨?_, hports.1, hports.2, ?_⟩
    · rw [reply_executing (s := s) rfl]; rfl
    · rw [reply_executing (s := s) rfl]; rfl
  · intro s p k tag body c tab request harrives
    obtain ⟨hc, hb, ha, hrole, hreq⟩ := harrives
    have hrun (status : Status) (h1 : s.judgeTaken p tab = some status ∨ k = .readTab)
        (h2 : k = .readTab → s.judgeReadTaken p tab = some status) :
        ∃ t, exec c s = .next t ∧ OnlyReplied s t p k tag status (requestDetail request).bytes := by
      refine ⟨_, exec_of_admitted hc hb ha (not_taken_of_tabRequest hreq), ?_⟩
      have hjudge : (if k = .readTab then (afterTaking s p k tag).judgeReadTaken p tab
          else (afterTaking s p k tag).judgeTaken p tab) = some status := by
        split
        · rename_i hk; exact h2 hk
        · rename_i hk; exact h1.resolve_right hk
      rw [ownerOf_tabRequest hreq, hjudge]
      exact refuse_afterTaking s p k tag status _
    refine ⟨fun h => ?_, fun htab hdamaged hread => ?_, fun htab hfree hread hgroup => ?_⟩
    · have h' : (!isTab tab || decide ((s.dir tab).state = .free)) = true := by
        rcases h with h | h <;> simp [h]
      exact hrun .noSuchTab (.inl (by rw [State.judgeTaken, if_pos h'])) fun _ => by rw [State.judgeReadTaken, if_pos h']
    · refine hrun .tabDamaged (.inl (by simp [State.judgeTaken, htab, hdamaged])) fun hk => ?_
      simp [State.judgeReadTaken, htab, hdamaged, hread hk]
    · refine hrun .notPermitted ?_ fun hk => by simp [State.judgeReadTaken, htab, hfree, hrole, hgroup]
      by_cases hk : k = .readTab
      · exact .inr hk
      · exact .inl (by simp [State.judgeTaken, htab, hfree, mt hread hk, hgroup])
  · intro s p k tag body c hc hb ha hrow hreq horder
    have hk : k ≠ .taken := by rintro rfl; exact hrow rfl
    obtain ⟨d, hd⟩ := ownerOf_parse hrow hreq horder p (afterTaking s p k tag)
    refine ⟨_, d, exec_of_admitted hc hb ha hk, ?_⟩
    rw [hd]
    exact refuse_afterTaking s p k tag .parse d

end Sys2Proof.AtSlot
end

section
/-! PROOFS. SPLIT as it executes at a READY slot with nobody waiting: a plan is written or replaced, or refused. O28. -/

namespace Sys2Proof.AtSlot

-- One theorem after another: as many checks at once take a thread each.
set_option Elab.async false

open Sys2Proof Sys2Proof.Machine Sys2Proof.Statements Sys2Proof.Invariants Sys2Proof.Frames Sys2Proof.SplitArithmetic

/-! ### What a request that executes at once leaves -/

/-- A state that has changed a slot since the request was taken, and its slot alone. -/
theorem slotBecomes_of {s t u : State} {i : SlotId} {x : CacheSlot} (h : t.slots = (u.setSlot i x).slots) (hu : u.slots = s.slots) :
    SlotBecomes s t i x := by
  have hslot : ∀ j, t.slot j = (u.setSlot i x).slot j := fun j => by simp only [State.slot, h]
  refine ⟨(hslot i).trans (State.slot_setSlot_self _ _ _), fun j hj => ?_⟩
  rw [hslot, State.slot_setSlot_other _ hj]
  simp only [State.slot, hu]

theorem entryBecomes_of {s t u : State} {tab : Nat} {e : DirEntry} (h : t.directory = (u.setDir tab e).directory)
    (hu : ∀ v, v ≠ tab → u.dir v = s.dir v) : EntryBecomes s t tab e := by
  have hdir : ∀ v, t.dir v = (u.setDir tab e).dir v := fun v => by simp only [State.dir, h]
  refine ⟨(hdir tab).trans (State.dir_setDir_self _ _ _), fun v hv => ?_⟩
  rw [hdir, State.dir_setDir_other _ hv, hu v hv]

theorem holdBecomes_of {s t u : State} {p : Port} {x : Option Hold} (h : t.holds = (u.setHold p x).holds)
    (hu : ∀ q, q ≠ p → u.hold q = s.hold q) : HoldBecomes s t p x := by
  have hhold : ∀ q, t.hold q = (u.setHold p x).hold q := fun q => by simp only [State.hold, h]
  refine ⟨(hhold p).trans (State.hold_setHold_self _ _ _), fun q hq => ?_⟩
  rw [hhold, State.hold_setHold_other _ hq, hu q hq]

theorem restartHold_of_some {s : State} {p : Port} {h : Hold} (e : s.hold p = some h) :
    s.restartHold p = s.setHold p (some { h with deadline := s.now + 1000 * s.timers.hold }) := by
  unfold State.restartHold
  rw [e]
  rfl

theorem endHold_of_holder {s : State} {tab : Nat} {p : Port} (e : (s.dir tab).holder = some p) :
    s.endHold tab = (s.setHold p none).setDir tab { s.dir tab with holder := none } := by
  unfold State.endHold
  rw [e]

theorem endHold_of_none {s : State} {tab : Nat} (e : (s.dir tab).holder = none) : s.endHold tab = s := by
  unfold State.endHold
  rw [e]

/-- A request that executes at once and is answered leaves what its block has done, with the reply at its port. -/
theorem exists_answered {s u : State} {p : Port} {k : Kind} {tag : Byte} {c : Instr} {status : Status} {fields : List Byte}
    {P : State → Prop} (hrun : exec c s = .next (u.reply p status fields)) (hu : u.ports = (afterTaking s p k tag).ports)
    (h : RepliedAt s (u.setPort p (repliedPort (s.port p) k tag status fields)) p k tag status fields →
      OtherPortsKept s (u.setPort p (repliedPort (s.port p) k tag status fields)) p →
      P (u.setPort p (repliedPort (s.port p) k tag status fields))) : ∃ t, exec c s = .next t ∧ P t := by
  replace hu : u.ports = (executing s p k tag 0).ports := hu
  obtain ⟨hreplied, hother⟩ := ports_executing hu status fields
  rw [reply_executing hu] at hreplied hother hrun
  exact ⟨_, hrun, h hreplied hother⟩

/-! ### SPLIT (R122 to R125) -/

theorem tabRequestOf_split {body : List Byte} {tab : Nat} {spec : SplitSpec} (h : readSplit body = some (tab, spec)) :
    tabRequestOf .split body = some (tab, .split tab spec) := by
  simp [tabRequestOf, h]

/-- A SPLIT with good fields at its tab's READY slot, when the check has passed. -/
theorem exec_split {s : State} {p : Port} {tag : Byte} {body : List Byte} {tab : Nat} {spec : SplitSpec} {i : SlotId}
    {r : TabRecord} (hb : body.length ≤ maxBody) (ha : Admitted s p .split) (hc : s.check = .passed)
    (hread : readSplit body = some (tab, spec)) (hat : AtReadySlot s p tab i r)
    (hstate : (s.dir tab).state = .opened ∨ (s.dir tab).state = .tendering) :
    exec (.split p tag body) s = .next (performSplit i p tab spec (executing s p .split tag i)) :=
  exec_atReadySlot (k := .split) rfl hb ha (tabRequestOf_split hread) hat (by rcases hstate with h | h <;> rw [h] <;> nofun)
    (by rcases hstate with h | h <;> rw [h] <;> nofun) fun _ => hc

theorem performSplit_new {s : State} {p : Port} {tab : Nat} {spec : SplitSpec} {i : SlotId} {r : TabRecord} {plan : SplitPlan}
    (hgroup : s.sameGroup p tab = true) (hopen : (s.dir tab).state = .opened) (hhold : s.holdsAnother p tab = false)
    (hrec : (s.slot i).record = some r) (hplan : makePlan spec r = .plan plan) :
    performSplit i p tab spec s = writeNewSplit i p tab r plan s := by
  have hjudge : s.judgeExecution .split p tab = none := by
    simp [State.judgeExecution, State.judgeState, hgroup, hopen, hhold]
  simp [performSplit, hjudge, hrec, hopen, hplan]

theorem judge_holder {s : State} {p : Port} {tab : Nat} (hgroup : s.sameGroup p tab = true)
    (htend : (s.dir tab).state = .tendering) (hholder : (s.dir tab).holder = some p) :
    s.judgeExecution .split p tab = none ∧ s.judgeExecution .cancelOrTender p tab = none ∧
      s.judgeExecution .resume p tab = none := by
  simp [State.judgeExecution, State.judgeState, State.judgeTendering, hgroup, htend, hholder]

/-- The entry after two changes of one tab's entry, with the same other entries. -/
theorem entryBecomes_twice {s t u : State} {tab : Nat} {e e' : DirEntry}
    (h : t.directory = ((u.setDir tab e).setDir tab e').directory) (hu : u.directory = s.directory) :
    EntryBecomes s t tab e' :=
  entryBecomes_of h fun v hv => by rw [State.dir_setDir_other _ hv]; simp only [State.dir, hu]

theorem writeNewSplit_writes {s : State} {i : SlotId} {p : Port} {tab : Nat} {r : TabRecord} {plan : SplitPlan}
    (h : planAllPaid plan = false) :
    writeNewSplit i p tab r plan s =
      (((s.writeRecord i { r with plan := some plan }).takeHold p tab).setDir tab
        { s.dir tab with state := .tendering, holder := some p }).reply p .ok (splitReply tab .tendering plan) := by
  have hdir : ((s.writeRecord i { r with plan := some plan }).takeHold p tab).dir tab = { s.dir tab with holder := some p } :=
    State.dir_setDir_self _ _ _
  simp only [writeNewSplit, h, hdir, Bool.false_eq_true, if_false]

theorem performSplit_replaces {s : State} {p : Port} {tab : Nat} {spec : SplitSpec} {i : SlotId} {r : TabRecord}
    (hgroup : s.sameGroup p tab = true) (htend : (s.dir tab).state = .tendering) (hholder : (s.dir tab).holder = some p)
    (hrec : (s.slot i).record = some r) :
    performSplit i p tab spec s =
      if (s.dir tab).paidInPart then (s.restartHold p).refuse p .paidInPart { tab := tab }
      else match makePlan spec r with
        | .refused status index figure => (s.restartHold p).refuse p status (splitDetail tab index figure)
        | .plan plan => replaceSplit i p tab r plan s := by
  simp only [performSplit, (judge_holder hgroup htend hholder).1, hrec, htend, if_true] <;> rfl

theorem namesActiveLine_iff {lines : List TabLine} {e : Assignment} :
    namesActiveLine lines e = true ↔ ∃ l ∈ lines, l.number = e.line ∧ l.state = .active := by
  simp [namesActiveLine]

theorem isListed_iff {entries : List Assignment} {l : TabLine} :
    isListed entries l = true ↔ ∃ e ∈ entries, e.line = l.number := by
  simp [isListed]

/-- The mode's own checks of BY-ITEM (R118): the first entry without an ACTIVE line, then, under REFUSE, the first ACTIVE line
without an entry. -/
theorem makePlan_byItem (n : Nat) (policy : SplitPolicy) (entries : List Assignment) (r : TabRecord) :
    let names (e : Assignment) : Prop := ∃ l ∈ r.lines, l.number = e.line ∧ l.state = .active
    let isNamed (l : TabLine) : Prop := ∃ e ∈ entries, e.line = l.number
    (∀ front e back, entries = front ++ e :: back → (∀ x ∈ front, names x) → ¬ names e →
      makePlan (.byItem n policy entries) r = .refused .parse e.line 0) ∧
    (∀ front l back, (∀ x ∈ entries, names x) → policy = .refuse → r.lines = front ++ l :: back → l.state = .active →
      ¬ isNamed l → (∀ y ∈ front, y.state = .active → isNamed y) →
      makePlan (.byItem n policy entries) r = .refused .splitUnassigned l.number 0) ∧
    ((∀ x ∈ entries, names x) → (policy = .shareAll ∨ ∀ l ∈ r.lines, l.state = .active → isNamed l) →
      makePlan (.byItem n policy entries) r = .plan { mode := .byItem, shares := itemShares r.totals n entries r.lines }) := by
  intro names isNamed
  have hgood (h : ∀ x ∈ entries, names x) : entries.find? (fun e => !namesActiveLine r.lines e) = none :=
    List.find?_eq_none.2 fun x hx => by simp [namesActiveLine_iff.2 (h x hx)]
  refine ⟨fun front e back he hfront hbad => ?_, fun front l back hall hp hl hact hno hfront => ?_, fun hall hor => ?_⟩
  · have hfind : entries.find? (fun e => !namesActiveLine r.lines e) = some e := by
      rw [List.find?_eq_some_iff_append]
      refine ⟨by simpa using mt namesActiveLine_iff.1 hbad, front, back, he, fun x hx => by simp [namesActiveLine_iff.2 (hfront x hx)]⟩
    simp only [makePlan, hfind]
  · have hfind : r.lines.find? (fun l => l.state = .active && !isListed entries l) = some l := by
      rw [List.find?_eq_some_iff_append]
      refine ⟨by simpa [hact] using mt isListed_iff.1 hno, front, back, hl, fun y hy => ?_⟩
      by_cases hy' : y.state = .active
      · simp [hy', isListed_iff.2 (hfront y hy hy')]
      · simp [hy']
    simp only [makePlan, hgood hall, hp, hfind]
  · rcases hor with rfl | hor
    · simp only [makePlan, hgood hall]
    · have hfind : r.lines.find? (fun l => l.state = .active && !isListed entries l) = none :=
        List.find?_eq_none.2 fun l hl => by
          by_cases hact : l.state = .active
          · simp [hact, isListed_iff.2 (hor l hl hact)]
          · simp [hact]
      simp only [makePlan, hgood hall, hfind]

/-- Settles O28: the judgement, then the record's own plan or refusal; only the holder's deadline moves with a refusal. -/
theorem splitWritesPlanUnderHold : Obligations.SplitWritesPlanUnderHold := by
  unfold Obligations.SplitWritesPlanUnderHold
  refine ⟨fun s p tag body tab spec i r plan hb ha hc hread hat hplan => ⟨fun hopen hother hunpaid => ?_,
      fun h htend hholder hpaid hhold => ?_⟩,
    fun s p tag body tab spec i r h status index figure hb ha hc hread hat htend hholder hhold hwhy => ?_,
    fun s p tag body tab spec i r status index figure hb ha hc hread hat hopen hother hplan => ?_,
    makePlan_byItem, fun n amounts r h => makePlan_byAmount_overTotal n h⟩
  · obtain ⟨-, hgroup, -, -, -, hrec, -⟩ := id hat
    have hrun := (performSplit_new (s := executing s p .split tag i) hgroup hopen hother hrec hplan).trans (writeNewSplit_writes hunpaid)
    have hexec := (exec_split hb ha hc hread hat (.inl hopen)).trans (congrArg Host.Outcome.next hrun)
    refine exists_answered hexec (by cases s; rfl) fun hreply hother => ?_
    exact ⟨by cases s; rfl, slotBecomes_of (u := executing s p .split tag i) (by cases s; rfl) rfl,
      entryBecomes_twice (u := s) (e := { s.dir tab with holder := some p }) (by cases s; rfl) rfl,
      holdBecomes_of (u := s) (by cases s; rfl) fun _ _ => rfl, hreply, hother, by cases s; rfl⟩
  · obtain ⟨-, hgroup, -, -, -, hrec, -⟩ := id hat
    have hrun := performSplit_replaces (spec := spec) (s := executing s p .split tag i) hgroup htend hholder hrec
    rw [if_neg (by exact ne_true_of_eq_false hpaid), hplan] at hrun
    replace hrun := hrun.trans (congrArg (fun u : State => u.reply p .ok (splitReply tab .tendering plan))
      (restartHold_of_some (s := (executing s p .split tag i).writeRecord i { r with plan := some plan }) hhold))
    refine exists_answered ((exec_split hb ha hc hread hat (.inr htend)).trans (congrArg _ hrun)) rfl fun hreply hother => ?_
    exact ⟨rfl, slotBecomes_of (u := executing s p .split tag i) rfl rfl,
      holdBecomes_of (u := s) rfl fun _ _ => rfl, hreply, hother, by cases s; rfl⟩
  · obtain ⟨-, hgroup, -, -, -, hrec, -⟩ := id hat
    have hrun : performSplit i p tab spec (executing s p .split tag i) =
        ((executing s p .split tag i).restartHold p).reply p status (Detail.bytes { tab := tab, index := index, figure := figure }) := by
      rw [performSplit_replaces (s := executing s p .split tag i) hgroup htend hholder hrec]
      rcases hwhy with ⟨hpaid, rfl, rfl, rfl⟩ | ⟨hpaid, hplan⟩
      · rw [if_pos (by exact hpaid)]; rfl
      · rw [if_neg (by exact ne_true_of_eq_false hpaid), hplan]; rfl
    rw [restartHold_of_some (s := executing s p .split tag i) hhold] at hrun
    refine exists_answered ((exec_split hb ha hc hread hat (.inr htend)).trans (congrArg _ hrun)) rfl fun hreply hother => ?_
    exact ⟨rfl, holdBecomes_of (u := s) rfl fun _ _ => rfl, hreply, hother, by cases s; rfl⟩
  · exact ⟨_, exec_split_refused hb ha hc hread hat hopen hother hplan, rfl, State.port_setPort_self _ _ _,
      fun q hq => State.port_setPort_other _ hq _, rfl⟩

end Sys2Proof.AtSlot
end

section
/-! PROOFS. The dues of a plan add up (R116 to R121), and a plan for a total of 0 closes its tab (R125). O26, O29. -/

namespace Sys2Proof.AtSlot

-- One theorem after another: as many checks at once take a thread each.
set_option Elab.async false

open Sys2Proof Sys2Proof.Machine Sys2Proof.Statements Sys2Proof.Invariants Sys2Proof.Frames Sys2Proof.SplitArithmetic

/-! ### What the engine makes of a mode -/

theorem perClass_get {α : Type} (f : TaxClass → α) (c : TaxClass) : (perClass f)[c.val] = f c := by
  fin_cases c <;> rfl

theorem range_map_getD {l : List Nat} {n : Nat} (h : l.length = n) : (List.range n).map (fun j => l.getD j 0) = l :=
  List.ext_getElem (by simp [h]) fun j hj hj' => by simp [List.getElem?_eq_getElem hj']

theorem newShare_paid_iff (due : Nat) (x : Option Amounts) : (newShare due x).state = .paid ↔ due = 0 := by
  unfold newShare
  split <;> simp_all

/-- The plan of each mode. -/
theorem makePlan_cases {spec : SplitSpec} {r : TabRecord} {plan : SplitPlan} (h : makePlan spec r = .plan plan) :
    (∃ n, spec = .even n ∧ plan = { mode := .even, shares := evenShares r.totals n }) ∨
    (∃ n policy entries, spec = .byItem n policy entries ∧
      plan = { mode := .byItem, shares := itemShares r.totals n entries r.lines }) ∨
    (∃ n amounts, spec = .byAmount n amounts ∧ amounts.sum ≤ r.totals.total ∧
      plan = { mode := .byAmount, shares := amountShares r.totals amounts }) := by
  unfold makePlan at h
  split at h
  · cases h; exact .inl ⟨_, rfl, rfl⟩
  · split at h
    · cases h
    · split at h
      · cases h
      · cases h; exact .inr (.inl ⟨_, _, _, rfl, rfl⟩)
  · split at h
    · cases h
    · rename_i hle; cases h; exact .inr (.inr ⟨_, _, rfl, Nat.not_lt.1 hle, rfl⟩)

/-- Every share of a plan that the engine makes is new. -/
theorem makePlan_newShare {spec : SplitSpec} {r : TabRecord} {plan : SplitPlan} (h : makePlan spec r = .plan plan) :
    ∀ x ∈ plan.shares, ∃ due y, x = newShare due y := by
  intro x hx
  rcases makePlan_cases h with ⟨n, -, rfl⟩ | ⟨n, policy, entries, -, rfl⟩ | ⟨n, amounts, -, -, rfl⟩ <;>
    obtain ⟨_, -, rfl⟩ := List.mem_map.1 hx <;> exact ⟨_, _, rfl⟩

/-- New shares have no credit, and are PAID exactly when nothing is due (R121). -/
theorem makePlan_new {spec : SplitSpec} {r : TabRecord} {plan : SplitPlan} (h : makePlan spec r = .plan plan) :
    ∀ x ∈ plan.shares, x.credited = 0 ∧ (x.state = .paid ↔ x.due = 0) := by
  intro x hx
  obtain ⟨due, y, rfl⟩ := makePlan_newShare h x hx
  exact ⟨rfl, newShare_paid_iff due y⟩

/-! ### The nets of a BY-ITEM split (R118, R119) -/

theorem sum_map_sum_comm {α : Type} (l : List α) (n : Nat) (f : α → Nat → Nat) :
    ((List.range n).map (fun j => (l.map (fun a => f a j)).sum)).sum = (l.map (fun a => ((List.range n).map (f a)).sum)).sum := by
  induction l with
  | nil => simp
  | cons a rest ih => simp only [List.map_cons, List.sum_cons, List.sum_map_add, ih]

/-- An amount apportioned over `n` shares adds up to it, unless no share has a weight. -/
theorem sum_apportion_range {amount n : Nat} {weights : List Nat} (hlength : weights.length = n) (h : weights.sum = 0 → amount = 0) :
    ((List.range n).map (fun j => (apportion amount weights).getD j 0)).sum = amount := by
  rw [range_map_getD (by rw [apportion_length, hlength])]
  by_cases hw : weights.sum = 0
  · rw [apportion_of_nothing (.inr hw), h hw]; simp
  · exact apportion_sum hw

theorem lineWeights_length (n : Nat) (entries : List Assignment) (l : TabLine) : (lineWeights n entries l).length = n := by
  unfold lineWeights
  split <;> simp [evenWeights]

/-- Entries as R115 admits them give every line a share with a weight. -/
theorem lineWeights_sum {n : Nat} {entries : List Assignment} (hn : 1 ≤ n)
    (h : ∀ e ∈ entries, 1 ≤ e.share ∧ e.share ≤ n ∧ 1 ≤ e.portions ∧ e.portions ≤ 15) (l : TabLine) :
    (lineWeights n entries l).sum ≠ 0 := by
  unfold lineWeights
  split
  · rename_i hlisted
    obtain ⟨e, he, hline⟩ := isListed_iff.1 hlisted
    obtain ⟨hone, hshare, hportions, -⟩ := h e he
    intro hzero
    have hall := List.sum_eq_zero_iff.1 hzero
    have := hall _ (List.mem_map.2 ⟨e.share - 1, List.mem_range.2 (by omega), rfl⟩)
    have := List.sum_eq_zero_iff.1 this e.portions
      (List.mem_map.2 ⟨e, List.mem_filter.2 ⟨he, by simp [hline]; omega⟩, rfl⟩)
    omega
  · simp [evenWeights]; omega

theorem classNet_chargesOf (c : TaxClass) (lines : List TabLine) :
    classNet c (chargesOf lines) =
      ((lines.filter (fun l => l.state = .active && l.taxClass = c)).map (fun l => l.quantity * l.price)).sum := by
  unfold classNet chargesOf
  induction lines with
  | nil => rfl
  | cons l rest ih =>
    by_cases hact : l.state = .active
    · by_cases hc : l.taxClass = c <;> simp [lineCharge, hact, hc, ih]
    · simp [lineCharge, hact, ih]

/-- The class nets of the shares add up to the tab's (R119, stage 1). -/
theorem itemShareNet_sum {n : Nat} {entries : List Assignment} {lines : List TabLine}
    (h : ∀ l ∈ lines, (lineWeights n entries l).sum = 0 → l.quantity * l.price = 0) (c : TaxClass) :
    ((List.range n).map (itemShareNet n entries lines c)).sum = classNet c (chargesOf lines) := by
  have hcomm := sum_map_sum_comm (lines.filter (fun l => l.state = .active && l.taxClass = c)) n
    (fun l j => (apportion (l.quantity * l.price) (lineWeights n entries l)).getD j 0)
  rw [classNet_chargesOf]
  refine hcomm.trans (congrArg List.sum (List.map_congr_left fun l hl => ?_))
  exact sum_apportion_range (lineWeights_length n entries l) (h l (List.mem_filter.1 hl).1)

theorem itemShareTotalNet_sum (n : Nat) (entries : List Assignment) (lines : List TabLine) :
    ((List.range n).map (itemShareTotalNet n entries lines)).sum =
      ((List.range n).map (itemShareNet n entries lines 0)).sum + ((List.range n).map (itemShareNet n entries lines 1)).sum +
        ((List.range n).map (itemShareNet n entries lines 2)).sum + ((List.range n).map (itemShareNet n entries lines 3)).sum := by
  unfold itemShareTotalNet
  simp only [List.sum_map_add]

/-- The sum of what parts hold, component by component. -/
theorem sum_amountsSum (parts : List Amounts) :
    (parts.map amountsSum).sum =
      (parts.map (fun a => a.net[0])).sum + (parts.map (fun a => a.net[1])).sum + (parts.map (fun a => a.net[2])).sum +
        (parts.map (fun a => a.net[3])).sum +
      ((parts.map (fun a => a.tax[0])).sum + (parts.map (fun a => a.tax[1])).sum + (parts.map (fun a => a.tax[2])).sum +
        (parts.map (fun a => a.tax[3])).sum) + (parts.map (fun a => a.service)).sum := by
  unfold amountsSum amountsNet amountsTax
  simp only [List.sum_map_add]

/-- Parts whose components add up to an amount's add up to it. -/
theorem sum_of_components {parts : List Amounts} {a : Amounts}
    (hnet : ∀ c : TaxClass, (parts.map (fun x => x.net[c.val])).sum = a.net[c.val])
    (htax : ∀ c : TaxClass, (parts.map (fun x => x.tax[c.val])).sum = a.tax[c.val])
    (hservice : (parts.map (fun x => x.service)).sum = a.service) : (parts.map amountsSum).sum = amountsSum a := by
  rw [sum_amountsSum]
  exact congrArg₂ _ (congrArg₂ _ (congrArg₂ _ (congrArg₂ _ (congrArg₂ _ (hnet 0) (hnet 1)) (hnet 2)) (hnet 3))
    (congrArg₂ _ (congrArg₂ _ (congrArg₂ _ (htax 0) (htax 1)) (htax 2)) (htax 3))) hservice

/-! ### The dues of a plan -/

/-- The components that the shares of a BY-ITEM split are due. -/
theorem itemComponents_sums {r : TabRecord} (hr : RecordSound r) {n : Nat} {entries : List Assignment}
    (hw : ∀ l ∈ r.lines, (lineWeights n entries l).sum = 0 → l.quantity * l.price = 0) :
    let parts := (List.range n).map (itemComponents r.totals.amounts n entries r.lines)
    (∀ c : TaxClass, (parts.map (fun a => a.net[c.val])).sum = r.totals.amounts.net[c.val]) ∧
    (∀ c : TaxClass, (parts.map (fun a => a.tax[c.val])).sum = r.totals.amounts.tax[c.val]) ∧
    (parts.map (fun a => a.service)).sum = r.totals.amounts.service := by
  have hnet (c : TaxClass) : ((List.range n).map (itemShareNet n entries r.lines c)).sum = r.totals.amounts.net[c.val] := by
    rw [itemShareNet_sum hw, hr.net]
  refine ⟨fun c => ?_, fun c => ?_, ?_⟩
  · rw [List.map_map, ← hnet c]
    exact congrArg List.sum (List.map_congr_left fun j _ => perClass_get _ c)
  · have := sum_apportion_range (amount := r.totals.amounts.tax[c.val]) (n := n)
      (weights := (List.range n).map (itemShareNet n entries r.lines c)) (by simp) fun h => hr.tax c (by rw [← hnet, h])
    rw [List.map_map]
    exact (congrArg List.sum (List.map_congr_left fun j _ => perClass_get _ c)).trans this
  · have := sum_apportion_range (amount := r.totals.amounts.service) (n := n)
      (weights := (List.range n).map (itemShareTotalNet n entries r.lines)) (by simp) fun h => hr.service (by
        rw [itemShareTotalNet_sum, hnet 0, hnet 1, hnet 2, hnet 3] at h
        exact h)
    rw [List.map_map]
    exact this

/-- The components of the shares of an EVEN split, one amount at a time (R117). -/
theorem evenComponents_parts (a : Amounts) (n : Nat) :
    let parts := (List.range n).map (evenComponents a n)
    (∀ c : TaxClass, parts.map (fun x => x.net[c.val]) = apportion a.net[c.val] (List.replicate n 1)) ∧
    (∀ c : TaxClass, parts.map (fun x => x.tax[c.val]) = apportion a.tax[c.val] (List.replicate n 1)) ∧
    parts.map (fun x => x.service) = apportion a.service (List.replicate n 1) := by
  have hparts (amount : Nat) : (List.range n).map (fun j => (apportion amount (evenWeights n)).getD j 0) =
      apportion amount (List.replicate n 1) := range_map_getD (by rw [apportion_length]; exact List.length_replicate)
  refine ⟨fun c => ?_, fun c => ?_, ?_⟩
  · rw [List.map_map, ← hparts]
    exact List.map_congr_left fun j _ => perClass_get _ c
  · rw [List.map_map, ← hparts]
    exact List.map_congr_left fun j _ => perClass_get _ c
  · rw [List.map_map]
    exact hparts _

/-- The dues of a plan add up to the total. -/
theorem makePlan_dues {spec : SplitSpec} {r : TabRecord} {plan : SplitPlan} (hr : RecordSound r) (hspec : SpecAdmitted spec)
    (h : makePlan spec r = .plan plan) : (plan.shares.map Share.due).sum = r.totals.total := by
  rcases makePlan_cases h with ⟨n, rfl, rfl⟩ | ⟨n, policy, entries, rfl, rfl⟩ | ⟨n, amounts, rfl, hle, rfl⟩
  · obtain ⟨hone, -⟩ := hspec
    rw [evenShares_dues]
    exact apportion_sum (by simp [evenWeights]; omega)
  · obtain ⟨hone, -, hentries⟩ := hspec
    obtain ⟨hnet, htax, hservice⟩ := itemComponents_sums hr (n := n) (entries := entries) fun l _ hw =>
      absurd hw (lineWeights_sum hone hentries l)
    have hsum := sum_of_components hnet htax hservice
    rw [hr.total, ← hsum, itemShares, List.map_map, List.map_map]
    rfl
  · rw [amountShares_dues]
    simp; omega

/-- Settles O26: every amount is apportioned with weights that are not all 0, or is 0 itself. -/
theorem planDuesSumToTotal : Obligations.PlanDuesSumToTotal := by
  intro spec r plan hr hspec hplan
  refine ⟨makePlan_dues hr hspec hplan, makePlan_new hplan, fun hmode => ?_, fun n hn => ?_⟩
  · rcases makePlan_cases hplan with ⟨n, rfl, rfl⟩ | ⟨n, policy, entries, rfl, rfl⟩ | ⟨n, amounts, rfl, hle, rfl⟩
    · cases hmode
    · obtain ⟨hone, -, hentries⟩ := hspec
      refine ⟨(List.range n).map (itemComponents r.totals.amounts n entries r.lines), ?_, ?_,
        itemComponents_sums hr fun l _ hw => absurd hw (lineWeights_sum hone hentries l)⟩
      · rw [itemShares, List.map_map, List.map_map]; rfl
      · rw [itemShares, List.map_map, List.map_map]; rfl
    · cases hmode
  · subst hn
    obtain ⟨hone, -⟩ := hspec
    obtain ⟨hnet, htax, hservice⟩ := evenComponents_parts r.totals.amounts n
    have hsum (amount : Nat) : (apportion amount (List.replicate n 1)).sum = amount := apportion_sum (by simp; omega)
    cases hplan
    refine ⟨(List.range n).map (evenComponents r.totals.amounts n), ?_, by simp,
      fun c => ⟨hnet c, ?_⟩, fun c => ⟨htax c, ?_⟩, hservice, ?_⟩
    · rw [evenShares, List.map_map, List.map_map]; rfl
    · rw [hnet c, hsum]
    · rw [htax c, hsum]
    · rw [hservice, hsum]

/-! ### A total of 0 (R125) -/

theorem mapM_length {α β : Type} {f : α → Option β} {l : List α} {ys : List β} (h : l.mapM f = some ys) : ys.length = l.length := by
  induction l generalizing ys with
  | nil => simp only [List.mapM_nil, Option.pure_def, Option.some.injEq] at h; subst h; rfl
  | cons x l ih =>
    simp only [List.mapM_cons, Option.pure_def, Option.bind_eq_bind, Option.bind_eq_some_iff, Option.some.injEq] at h
    obtain ⟨y, -, zs, hzs, rfl⟩ := h
    simp [ih hzs]

theorem pieces_length (k n : Nat) (bytes : List Byte) : (pieces k n bytes).length = n := by
  induction n generalizing bytes with
  | zero => rfl
  | succ n ih => simp [pieces, ih]

theorem readAssignment_admitted {n : Nat} {bytes : List Byte} {e : Assignment} (h : readAssignment n bytes = some e) :
    1 ≤ e.share ∧ e.share ≤ n ∧ 1 ≤ e.portions ∧ e.portions ≤ 15 := by
  unfold readAssignment at h
  split at h
  · split at h
    · rename_i hgood
      cases h
      exact hgood.2
    · cases h
  · cases h

/-- The fields of a SPLIT that parses are as R115 admits them. -/
theorem readSplit_admitted {body : List Byte} {tab : Nat} {spec : SplitSpec} (h : readSplit body = some (tab, spec)) :
    SpecAdmitted spec := by
  unfold readSplit at h
  split at h
  · obtain ⟨spec', hfields, e⟩ := Option.map_eq_some_iff.1 h
    cases e
    unfold readSplitFields at hfields
    split at hfields
    · split at hfields
      · rename_i hgood; cases hfields; exact ⟨hgood.1, hgood.2.1⟩
      · cases hfields
    · split at hfields
      · split at hfields
        · rename_i hgood
          split at hfields
          · rename_i hes
            cases hfields
            refine ⟨hgood.1, hgood.2.1, fun e he => ?_⟩
            obtain ⟨x, -, hx⟩ := mem_of_mapM hes he
            exact readAssignment_admitted hx
          · cases hfields
        · cases hfields
      · cases hfields
    · split at hfields
      · rename_i hgood
        split at hfields
        · rename_i hes
          cases hfields
          exact ⟨hgood.1, hgood.2.1, by rw [mapM_length hes, pieces_length]⟩
        · cases hfields
      · cases hfields
    · cases hfields
  · cases h

/-- The change to CLOSED of a tab that a till holds (R7, R136). -/
theorem closeTab_of_holder {s : State} {tab : Nat} {p : Port} (h : (s.dir tab).holder = some p) :
    s.closeTab tab =
      { (s.setHold p none) with
        directory := ((s.setDir tab { s.dir tab with holder := none }).setDir tab
          { s.dir tab with state := .closed, holder := none }).directory
        closedList := s.closedList ++ [tab] } := by
  unfold State.closeTab
  rw [endHold_of_holder h]
  simp only [State.dir_setDir_self]
  cases s
  rfl

theorem closeTab_entry {s : State} {tab : Nat} {p : Port} (h : (s.dir tab).holder = some p) :
    EntryBecomes s (s.closeTab tab) tab { s.dir tab with state := .closed, holder := none } := by
  rw [closeTab_of_holder h]
  exact entryBecomes_twice (u := s) rfl rfl

theorem writeNewSplit_closes {s : State} {i : SlotId} {p : Port} {tab : Nat} {r : TabRecord} {plan : SplitPlan}
    (h : planAllPaid plan = true) :
    writeNewSplit i p tab r plan s =
      ((((s.writeRecord i { r with plan := some plan }).takeHold p tab).setDir tab
        { s.dir tab with state := .tendering, holder := some p }).closeTab tab).reply p .ok (splitReply tab .closed plan) := by
  have hdir : ((s.writeRecord i { r with plan := some plan }).takeHold p tab).dir tab = { s.dir tab with holder := some p } :=
    State.dir_setDir_self _ _ _
  simp only [writeNewSplit, h, hdir, if_true]

/-- Settles O29: nothing is due to any share, so the plan closes the tab as it is written. -/
theorem zeroTotalSplitClosesTab : Obligations.ZeroTotalSplitClosesTab := by
  intro s p tag body tab spec i r plan hb ha hc hread hat hplan hopen hother hr hzero
  have hdue : ∀ x ∈ plan.shares, x.due = 0 := fun x hx =>
    List.sum_eq_zero_iff.1 ((makePlan_dues hr (readSplit_admitted hread) hplan).trans hzero) x.due (List.mem_map_of_mem hx)
  have hpaid : ∀ x ∈ plan.shares, x.state = .paid := fun x hx => (makePlan_new hplan x hx).2.2 (hdue x hx)
  refine ⟨fun x hx => ⟨hpaid x hx, hdue x hx⟩, ?_⟩
  obtain ⟨-, hgroup, -, -, -, hrec, -⟩ := id hat
  have hrun := (performSplit_new (s := executing s p .split tag i) hgroup hopen hother hrec hplan).trans
    (writeNewSplit_closes (by simpa [planAllPaid] using hpaid))
  generalize hv : ((executing s p .split tag i).writeRecord i { r with plan := some plan }).takeHold p tab = v at hrun
  have hexec : exec (.split p tag body) s = .next (((v.setDir tab
      { s.dir tab with state := .tendering, holder := some p }).closeTab tab).reply p .ok (splitReply tab .closed plan)) :=
    (exec_split hb ha hc hread hat (.inl hopen)).trans (congrArg Host.Outcome.next hrun)
  have hvdir : ∀ w, w ≠ tab → v.dir w = s.dir w := fun w hw => by rw [← hv]; exact State.dir_setDir_other _ hw _
  have hwdir : (v.setDir tab { s.dir tab with state := .tendering, holder := some p }).dir tab =
      { s.dir tab with state := .tendering, holder := some p } := State.dir_setDir_self _ _ _
  have hentry := closeTab_entry (p := p) (congrArg DirEntry.holder hwdir)
  have hclose := closeTab_of_holder (p := p) (congrArg DirEntry.holder hwdir)
  rw [hwdir] at hentry
  refine exists_answered (k := .split) (tag := tag) hexec (by rw [hclose, ← hv]; cases s; rfl) fun hreply hothers => ?_
  refine ⟨?_, slotBecomes_of (u := executing s p .split tag i) ?_ rfl, ⟨hentry.1, fun w hw => ?_⟩,
    ⟨?_, fun q hq => ?_⟩, ?_, ?_, hreply, hothers, ?_⟩
  · rw [hclose, ← hv]; cases s; rfl
  · rw [hclose, ← hv]; cases s; rfl
  · exact (hentry.2 w hw).trans ((State.dir_setDir_other _ hw _).trans (hvdir w hw))
  · rw [hclose]; exact State.hold_setHold_self _ _ _
  · rw [hclose, ← hv]
    exact (State.hold_setHold_other _ hq _).trans (State.hold_setHold_other _ hq _)
  · rw [hclose, ← hv]; cases s; rfl
  · rw [hclose, ← hv]; cases s; rfl
  · rw [hclose, ← hv]; cases s; rfl

end Sys2Proof.AtSlot
end

section
/-! PROOFS. CANCEL SPLIT, TENDER and RESUME as they execute at a READY slot with nobody waiting, and the end of a hold. O30 to O33. -/

namespace Sys2Proof.AtSlot

-- One theorem after another: as many checks at once take a thread each.
set_option Elab.async false

open Sys2Proof Sys2Proof.Machine Sys2Proof.Statements Sys2Proof.Invariants Sys2Proof.Frames Sys2Proof.SplitArithmetic

/-! ### CANCEL SPLIT (R126) -/

theorem performCancelSplit_of_holder {s : State} {p : Port} {tab : Nat} {i : SlotId} {r : TabRecord}
    (hgroup : s.sameGroup p tab = true) (htend : (s.dir tab).state = .tendering) (hholder : (s.dir tab).holder = some p)
    (hrec : (s.slot i).record = some r) :
    performCancelSplit i p tab s =
      if (s.dir tab).paidInPart then s.refuse p .paidInPart { tab := tab }
      else ((((s.writeRecord i { r with plan := none }).setHold p none).setDir tab { s.dir tab with holder := none }).setDir tab
        { s.dir tab with state := .opened, holder := none }).reply p .ok (num2 tab ++ num1 1 ++ money r.totals.total) := by
  have hend : (s.writeRecord i { r with plan := none }).endHold tab =
      ((s.writeRecord i { r with plan := none }).setHold p none).setDir tab { s.dir tab with holder := none } :=
    endHold_of_holder (s := s.writeRecord i { r with plan := none }) hholder
  unfold performCancelSplit
  rw [(judge_holder hgroup htend hholder).2.1]
  dsimp only
  rw [hrec]
  dsimp only
  rw [hend, State.dir_setDir_self]
  rfl

/-- Settles O30: the judgement passes for the holder, and paid-in-part decides. -/
theorem cancelSplitReopensTab : Obligations.CancelSplitReopensTab := by
  intro s p tag t0 t1 i r tab ha hat htend hholder
  obtain ⟨-, hgroup, -, -, -, hrec, -⟩ := id hat
  have hexec : exec (.cancelSplit p tag [t0, t1]) s = .next (performCancelSplit i p tab (executing s p .cancelSplit tag i)) :=
    exec_atReadySlot (k := .cancelSplit) (request := .cancelSplit tab) rfl (by simp [maxBody]) ha rfl hat (by rw [htend]; nofun)
      (by rw [htend]; nofun) nofun
  rw [performCancelSplit_of_holder (s := executing s p .cancelSplit tag i) hgroup htend hholder hrec] at hexec
  refine ⟨fun hpaid => ?_, fun hpaid => ?_⟩
  · rw [if_neg (by exact ne_true_of_eq_false hpaid)] at hexec
    refine exists_answered hexec (by cases s; rfl) fun hreply hothers => ?_
    exact ⟨rfl, slotBecomes_of (u := executing s p .cancelSplit tag i) rfl rfl, entryBecomes_twice rfl (by cases s; rfl),
      holdBecomes_of (u := s) rfl fun _ _ => rfl, hreply, hothers, by cases s; rfl⟩
  · rw [if_pos (by exact hpaid)] at hexec
    exact exists_answered hexec rfl fun hreply hothers => ⟨rfl, hreply, hothers, by cases s; rfl⟩

/-! ### TENDER (R133 to R137) -/

theorem readTender_length {body : List Byte} {f : TenderFields} (h : readTender body = some f) : body.length ≤ maxBody := by
  unfold readTender at h
  split at h
  · simp [maxBody]
  · cases h

/-- A TENDER of the holder restarts the deadline, and its checks decide (R104, R133). -/
theorem performTender_of_holder {s : State} {p : Port} {f : TenderFields} {i : SlotId} {r : TabRecord} {plan : SplitPlan} {h : Hold}
    (hgroup : s.sameGroup p f.tab = true) (htend : (s.dir f.tab).state = .tendering) (hholder : (s.dir f.tab).holder = some p)
    (hrec : (s.slot i).record = some r) (hplan : r.plan = some plan) (hhold : s.hold p = some h) :
    performTender i p f s =
      match judgeTender f r plan with
      | .refused status detail =>
        (s.setHold p (some { h with deadline := s.now + 1000 * s.timers.hold })).refuse p status detail
      | .passes x => recordTender i p f r plan x (s.setHold p (some { h with deadline := s.now + 1000 * s.timers.hold })) := by
  unfold performTender
  rw [(judge_holder hgroup htend hholder).2.1, restartHold_of_some hhold]
  dsimp only
  rw [hrec]
  dsimp only
  rw [hplan] <;> rfl

/-- What R133 makes of a TENDER, check by check. -/
theorem judgeTender_spec {f : TenderFields} {r : TabRecord} {plan : SplitPlan} :
    (∀ status d, TenderRefused f r plan status d → judgeTender f r plan = .refused status d) ∧
    (∀ x, plan.shares[f.share - 1]? = some x → x.state = .unpaid → reserveHolds r plan x f.method f.amount = true →
      (f.method = .card → f.amount = x.due - x.credited) → judgeTender f r plan = .passes x) := by
  refine ⟨fun status d h => ?_, fun x hx hopen hreserve hcard => ?_⟩
  · rcases h with ⟨hlong, rfl, rfl⟩ | ⟨x, hx, ⟨hpaid, rfl, rfl⟩ | ⟨hopen, hreserve, rfl, rfl⟩ | ⟨hopen, hreserve, hcard, hne, rfl, rfl⟩⟩
    · have hnone : plan.shares[f.share - 1]? = none := List.getElem?_eq_none (by omega)
      simp only [judgeTender, hnone]
    · simp only [judgeTender, hx, hpaid, if_true]
    · simp only [judgeTender, hx, hopen, hreserve, reduceCtorEq, if_false, Bool.not_false, if_true]
      rfl
    · have hmismatch : f.method = .card ∧ f.amount ≠ shareOutstanding x := ⟨hcard, hne⟩
      simp only [judgeTender, hx, hopen, hreserve, reduceCtorEq, if_false, Bool.not_true, Bool.false_eq_true, if_pos hmismatch]
      rfl
  · have hmatch : ¬ (f.method = .card ∧ f.amount ≠ shareOutstanding x) := fun h => h.2 (hcard h.1)
    simp only [judgeTender, hx, hopen, hreserve, reduceCtorEq, if_false, Bool.not_true, Bool.false_eq_true, if_neg hmatch]

/-- What R134 credits, by method. -/
theorem creditOf_eq (m : Method) (amount outstanding : Nat) :
    creditOf m amount outstanding = if m = .card then outstanding else min amount outstanding := by
  cases m <;> rfl

theorem creditShare_eq {x : Share} (h : x.state = .unpaid) (credit : Nat) :
    creditShare credit x =
      { x with credited := x.credited + credit, state := if x.credited + credit = x.due then .paid else .unpaid } := by
  rw [creditShare, h]

/-- A recorded tender, with what it makes of the tab (R134, R136). -/
theorem recordTender_eq (i : SlotId) (p : Port) (f : TenderFields) (r : TabRecord) (plan : SplitPlan) (x : Share) (s : State) :
    let plan' : SplitPlan :=
      { plan with shares := plan.shares.set (f.share - 1) (creditShare (creditOf f.method f.amount (shareOutstanding x)) x) }
    let paid := (s.writeRecord i (tenderedRecord f r plan x)).setDir f.tab { s.dir f.tab with paidInPart := true }
    let fields := tenderReply f (tenderEntry f x) (creditShare (creditOf f.method f.amount (shareOutstanding x)) x)
      (tenderedRecord f r plan x) plan'
    (planAllPaid plan' = false → recordTender i p f r plan x s = paid.reply p .ok (fields .tendering)) ∧
    (planAllPaid plan' = true → recordTender i p f r plan x s = (paid.closeTab f.tab).reply p .ok (fields .closed)) := by
  refine ⟨fun h => ?_, fun h => ?_⟩
  · simp only [recordTender, h, Bool.false_eq_true, if_false]; rfl
  · simp only [recordTender, h, if_true]; rfl

/-- A TENDER frame with good fields at its tab's READY slot. -/
theorem exec_tender {s : State} {p : Port} {tag : Byte} {body : List Byte} {f : TenderFields} {i : SlotId} {r : TabRecord}
    (ha : Admitted s p .tender) (hread : readTender body = some f) (hat : AtReadySlot s p f.tab i r)
    (htend : (s.dir f.tab).state = .tendering) :
    exec (.tender p tag body) s = .next (performTender i p f (executing s p .tender tag i)) := by
  have hreq : tabRequestOf .tender body = some (f.tab, .tender f.tab f.share f.method f.amount) := by simp [tabRequestOf, hread]
  exact exec_atReadySlot (k := .tender) rfl (readTender_length hread) ha hreq hat (by rw [htend]; nofun) (by rw [htend]; nofun) nofun

/-- Settles O31: the checks decide; a share that is not the last leaves the tab TENDERING, and the last closes it. -/
theorem tenderCreditsItsShare : Obligations.TenderCreditsItsShare := by
  refine ⟨?_, ?_⟩
  · intro s p tag body f i r plan x h ha hread hat htend hholder hhold hplan hx hopen hreserve hcard
    obtain ⟨-, hgroup, -, -, -, hrec, -⟩ := id hat
    have hexec := exec_tender (tag := tag) ha hread hat htend
    rw [performTender_of_holder (s := executing s p .tender tag i) hgroup htend hholder hrec hplan hhold,
      judgeTender_spec.2 x hx hopen hreserve hcard] at hexec
    obtain ⟨hgoes, hcloses⟩ := recordTender_eq i p f r plan x ((executing s p .tender tag i).setHold p
      (some { h with deadline := s.now + 1000 * s.timers.hold }))
    intro credit credited entry plan' r'
    have hcredit : creditOf f.method f.amount (shareOutstanding x) = credit := creditOf_eq _ _ _
    have hcredited : creditShare (creditOf f.method f.amount (shareOutstanding x)) x = credited := by
      rw [hcredit]; exact creditShare_eq hopen credit
    have hentry : tenderEntry f x = entry := by unfold tenderEntry; rw [hcredit]
    have hr' : tenderedRecord f r plan x = r' := by
      unfold tenderedRecord; dsimp only; rw [hentry, hcredited]
    rw [hcredited, hentry, hr'] at hgoes hcloses
    cases hall : planAllPaid plan' with
    | false =>
      replace hexec := hexec.trans (congrArg Host.Outcome.next (hgoes hall))
      refine exists_answered hexec (by cases s; rfl) fun hreply hothers => ?_
      exact ⟨rfl, slotBecomes_of (u := executing s p .tender tag i) rfl rfl, hothers,
        fun _ => ⟨entryBecomes_of (u := s) rfl fun _ _ => rfl, by cases s; rfl, holdBecomes_of (u := s) rfl fun _ _ => rfl, hreply⟩,
        nofun, by cases s; rfl⟩
    | true =>
      replace hexec := hexec.trans (congrArg Host.Outcome.next (hcloses hall))
      generalize hv : ((executing s p .tender tag i).setHold p (some { h with deadline := s.now + 1000 * s.timers.hold })).writeRecord
        i r' = v at hexec
      change exec _ s = .next (((v.setDir f.tab { s.dir f.tab with paidInPart := true }).closeTab f.tab).reply p .ok _) at hexec
      have hvdir : ∀ w, v.dir w = s.dir w := fun w => by rw [← hv]; rfl
      have hdir : (v.setDir f.tab { s.dir f.tab with paidInPart := true }).dir f.tab = { s.dir f.tab with paidInPart := true } :=
        State.dir_setDir_self _ _ _
      have hheld : ((v.setDir f.tab { s.dir f.tab with paidInPart := true }).dir f.tab).holder = some p :=
        (congrArg DirEntry.holder hdir).trans hholder
      have hentry := closeTab_entry hheld
      have hclose := closeTab_of_holder hheld
      rw [hdir] at hentry
      rw [hclose] at hexec hentry
      refine exists_answered hexec (by rw [← hv]; cases s; rfl) fun hreply hothers => ?_
      refine ⟨by rw [← hv]; cases s; rfl, slotBecomes_of (u := executing s p .tender tag i) (by rw [← hv]; cases s; rfl) rfl, hothers,
        nofun, fun _ => ⟨⟨hentry.1, fun w hw => ?_⟩, by rw [← hv]; cases s; rfl, ⟨State.hold_setHold_self _ _ _, fun q hq => ?_⟩, hreply⟩,
        by rw [← hv]; cases s; rfl⟩
      · exact (hentry.2 w hw).trans ((State.dir_setDir_other _ hw _).trans (hvdir w))
      · rw [← hv]
        exact (State.hold_setHold_other _ hq _).trans (State.hold_setHold_other _ hq _)
  · intro s p tag body f i r plan h status d ha hread hat htend hholder hhold hplan hrefused
    obtain ⟨-, hgroup, -, -, -, hrec, -⟩ := id hat
    have hexec := exec_tender (tag := tag) ha hread hat htend
    rw [performTender_of_holder (s := executing s p .tender tag i) hgroup htend hholder hrec hplan hhold,
      judgeTender_spec.1 status d hrefused] at hexec
    exact exists_answered hexec rfl fun hreply hothers =>
      ⟨rfl, holdBecomes_of (u := s) rfl fun _ _ => rfl, hreply, hothers, by cases s; rfl⟩

/-! ### RESUME (R108) -/

theorem performResume_takes {s : State} {p : Port} {tab : Nat} {i : SlotId} {r : TabRecord} (hgroup : s.sameGroup p tab = true)
    (htend : (s.dir tab).state = .tendering) (hrec : (s.slot i).record = some r) :
    ((s.dir tab).holder = none → s.holdsAnother p tab = false →
      performResume i p tab s = (s.takeHold p tab).reply p .ok (num2 tab ++ planSummary r)) ∧
    ((s.dir tab).holder = some p → performResume i p tab s = (s.restartHold p).reply p .ok (num2 tab ++ planSummary r)) := by
  refine ⟨fun hnone hother => ?_, fun hholder => ?_⟩
  · have hjudge : s.judgeExecution .resume p tab = none := by
      simp [State.judgeExecution, State.judgeState, State.judgeTendering, hgroup, htend, hnone, hother]
    simp only [performResume, hjudge, hrec, hnone, if_true]
  · simp only [performResume, (judge_holder hgroup htend hholder).2.2, hrec, hholder, reduceCtorEq, if_false]

/-- Settles O32: the judgement passes for a till that holds no other tab, and for the holder. -/
theorem resumeTakesOrKeepsHold : Obligations.ResumeTakesOrKeepsHold := by
  intro s p tag t0 t1 i r tab ha hat htend
  obtain ⟨-, hgroup, -, -, -, hrec, -⟩ := id hat
  have hexec : exec (.resume p tag [t0, t1]) s = .next (performResume i p tab (executing s p .resume tag i)) :=
    exec_atReadySlot (k := .resume) (request := .resume tab) rfl (by simp [maxBody]) ha rfl hat (by rw [htend]; nofun)
      (by rw [htend]; nofun) nofun
  obtain ⟨htakes, hkeeps⟩ := performResume_takes (s := executing s p .resume tag i) hgroup htend hrec
  refine ⟨fun hnone hother => ?_, fun h hholder hhold => ?_⟩
  · rw [htakes hnone hother] at hexec
    refine exists_answered hexec rfl fun hreply hothers => ?_
    exact ⟨rfl, entryBecomes_of (u := s) rfl fun _ _ => rfl, holdBecomes_of (u := s) rfl fun _ _ => rfl, hreply, hothers,
      by cases s; rfl⟩
  · rw [hkeeps hholder, restartHold_of_some (s := executing s p .resume tag i) hhold] at hexec
    refine exists_answered hexec rfl fun hreply hothers => ?_
    exact ⟨rfl, holdBecomes_of (u := s) rfl fun _ _ => rfl, hreply, hothers, by cases s; rfl⟩

/-! ### The end of a hold (R106, R109, R111) -/

/-- A notice is raised by the mask, the queue and the dropped mark alone. -/
theorem raise_congr {s u : State} (n : Notice) (hmask : u.mask = s.mask) (hnotices : u.notices = s.notices)
    (hdropped : u.dropped = s.dropped) : (u.raise n).notices = (s.raise n).notices ∧ (u.raise n).dropped = (s.raise n).dropped := by
  unfold State.raise
  rw [hmask, hnotices]
  split
  · split
    · exact ⟨rfl, hdropped⟩
    · exact ⟨rfl, rfl⟩
  · exact ⟨hnotices, hdropped⟩

theorem readySlotOf_eq_some {s : State} {tab : Nat} {i : SlotId} :
    s.readySlotOf tab = some i ↔ (s.dir tab).slot = some i ∧ (s.slot i).state = .ready ∧ (s.slot i).tab = some tab := by
  unfold State.readySlotOf
  split
  · rename_i h; simp [h]
  · rename_i j h
    rw [h]
    split
    · rename_i hj
      constructor
      · rintro ⟨⟩; exact ⟨rfl, hj⟩
      · rintro ⟨e, -⟩; exact e
    · rename_i hj
      constructor
      · nofun
      · rintro ⟨e, h'⟩; cases e; exact absurd h' hj

/-- What the notice of an ended hold leaves, with what the hold's end has made of the slots. -/
theorem holdEnded_raise {s u : State} {p : Port} {tab : Nat} {e : DirEntry} {slots : Vector CacheSlot 8} (n : Notice)
    (hu : u = { (s.setHold p none).setDir tab e with slots := slots }) :
    HoldBecomes s (u.raise n) p none ∧ EntryBecomes s (u.raise n) tab e ∧ (u.raise n).slots = slots ∧
      (u.raise n).notices = (s.raise n).notices ∧ (u.raise n).dropped = (s.raise n).dropped ∧
      { u.raise n with
        holds := s.holds, directory := s.directory, slots := s.slots, notices := s.notices, dropped := s.dropped } = s := by
  subst hu
  obtain ⟨hnotices, hdropped⟩ := raise_congr (s := s) (u := { (s.setHold p none).setDir tab e with slots := slots }) n rfl rfl rfl
  refine ⟨holdBecomes_of (u := s) ?_ fun _ _ => rfl, entryBecomes_of (u := s) ?_ fun _ _ => rfl, State.raise_slots _ _, hnotices,
    hdropped, ?_⟩
  · exact State.raise_holds _ _
  · exact State.raise_directory _ _
  · rw [State.raise_frame]
    cases s
    rfl

/-- The slots when the plan of a tab has gone from its READY slot (R106). -/
def slotsWithoutPlan (s : State) (tab : Nat) : Vector CacheSlot 8 :=
  match s.readySlotOf tab with
  | none => s.slots
  | some i => (s.dropPlan i).slots

theorem dropPlan_frame (s : State) (i : SlotId) : s.dropPlan i = { s with slots := (s.dropPlan i).slots } := by
  unfold State.dropPlan
  split
  · rfl
  · split <;> rfl

theorem dropPlan_slots_congr {s u : State} (h : u.slots = s.slots) (i : SlotId) : (u.dropPlan i).slots = (s.dropPlan i).slots := by
  have hslot : u.slot i = s.slot i := by simp only [State.slot, h]
  unfold State.dropPlan
  rw [hslot]
  split
  · exact h
  · split
    · exact h
    · simp only [State.writeRecord, State.setSlot, h, hslot]

theorem slotsWithoutPlan_of_plan {s : State} {tab : Nat} {i : SlotId} {r : TabRecord} (hslot : (s.dir tab).slot = some i)
    (hready : (s.slot i).state = .ready) (htab : (s.slot i).tab = some tab) (hrec : (s.slot i).record = some r) (hplan : r.plan ≠ none) :
    slotsWithoutPlan s tab = (s.setSlot i (changedSlot (s.slot i) { r with plan := none })).slots := by
  unfold slotsWithoutPlan
  rw [readySlotOf_eq_some.2 ⟨hslot, hready, htab⟩]
  simp only [State.dropPlan, hrec, if_neg hplan]
  rfl

theorem slotsWithoutPlan_of_none {s : State} {tab : Nat}
    (h : ∀ i r, (s.dir tab).slot = some i → (s.slot i).state = .ready → (s.slot i).tab = some tab → (s.slot i).record = some r →
      r.plan = none) : slotsWithoutPlan s tab = s.slots := by
  unfold slotsWithoutPlan
  split
  · rfl
  · rename_i i hi
    obtain ⟨hslot, hready, htab⟩ := readySlotOf_eq_some.1 hi
    unfold State.dropPlan
    split
    · rfl
    · rename_i r hrec
      rw [if_pos (h i r hslot hready htab hrec)]

/-- The end of a hold with money taken, and without: then the tab is OPEN, and its plan goes from a READY slot (R106). -/
theorem releaseHold_cases {s : State} {p : Port} {h : Hold} (hh : s.hold p = some h) (cause : HoldCause) :
    ((s.dir h.tab).paidInPart = true ∧ s.releaseHold p cause =
      ((s.setHold p none).setDir h.tab { s.dir h.tab with holder := none }).raise
        (.hold p h.tab cause (s.dir h.tab).state true)) ∨
    ((s.dir h.tab).paidInPart = false ∧ s.releaseHold p cause =
      { (s.setHold p none).setDir h.tab { s.dir h.tab with holder := none, state := .opened } with
        slots := slotsWithoutPlan s h.tab }.raise (.hold p h.tab cause .opened false)) := by
  have hdir : (s.setHold p none).dir h.tab = s.dir h.tab := rfl
  unfold State.releaseHold
  rw [hh]
  dsimp only
  rw [hdir]
  by_cases hpaid : (s.dir h.tab).paidInPart = true
  · refine .inl ⟨hpaid, ?_⟩
    rw [if_pos hpaid, State.dir_setDir_self, hpaid]
  · have hunpaid : (s.dir h.tab).paidInPart = false := by simpa using hpaid
    refine .inr ⟨hunpaid, ?_⟩
    rw [if_neg hpaid]
    generalize hv : (s.setHold p none).setDir h.tab { s.dir h.tab with holder := none, state := .opened } = v
    have hvdir : v.dir h.tab = { s.dir h.tab with holder := none, state := .opened } := by rw [← hv, State.dir_setDir_self]
    have hvslots : v.slots = s.slots := by rw [← hv]; rfl
    have hready : s.readySlotOf h.tab = v.readySlotOf h.tab := by
      unfold State.readySlotOf State.slot
      rw [hvdir, hvslots]
    unfold slotsWithoutPlan
    rw [hready]
    cases v.readySlotOf h.tab with
    | none =>
      dsimp only
      rw [hvdir, ← hvslots, hunpaid]
    | some i =>
      dsimp only
      have hdrop : (v.dropPlan i).dir h.tab = v.dir h.tab := by rw [dropPlan_frame]; rfl
      rw [hdrop, hvdir, hunpaid, ← dropPlan_slots_congr hvslots, ← dropPlan_frame]

/-- A hold that ends otherwise than by its tab's close (R106). -/
theorem releaseHold_ended {s : State} {p : Port} {h : Hold} (hh : s.hold p = some h) (cause : HoldCause) :
    HoldEnded s (s.releaseHold p cause) p h cause := by
  rcases releaseHold_cases hh cause with ⟨hpaid, e⟩ | ⟨hpaid, e⟩
  · rw [e]
    obtain ⟨hhold, hentry, hslots, hnotices, hdropped, hrest⟩ := holdEnded_raise (s := s) (p := p) (tab := h.tab) (slots := s.slots)
      (.hold p h.tab cause (s.dir h.tab).state true) rfl
    exact ⟨hhold, fun _ => ⟨hentry, hslots, hnotices, hdropped⟩, fun hno => by simp [hpaid] at hno,
      fun hno => by simp [hpaid] at hno, fun hno => by simp [hpaid] at hno, hrest⟩
  · rw [e]
    obtain ⟨hhold, hentry, hslots, hnotices, hdropped, hrest⟩ := holdEnded_raise (s := s) (p := p) (tab := h.tab)
      (.hold p h.tab cause .opened false) rfl
    exact ⟨hhold, fun hno => by simp [hpaid] at hno, fun _ => ⟨hentry, hnotices, hdropped⟩,
      fun _ i r hslot hready htab hrec hplan => slotBecomes_of (u := s) (hslots.trans (slotsWithoutPlan_of_plan hslot hready htab hrec hplan)) rfl,
      fun _ hnone => hslots.trans (slotsWithoutPlan_of_none hnone), hrest⟩

/-- Settles O33: the hold ends at its deadline, or at the model's moment when that is later. -/
theorem holdExpiryReleasesTab : Obligations.HoldExpiryReleasesTab := by
  intro s p h hh
  have hended := releaseHold_ended (s := s.reach h.deadline) hh .expired
  have hnow : ((s.reach h.deadline).releaseHold p .expired).now = max s.now h.deadline := congrArg State.now hended.rest
  refine ⟨(s.reach h.deadline).releaseHold p .expired, ?_, hnow ▸ le_max_right _ _, hnow, hended⟩
  show execHoldExpiry p s = _
  unfold execHoldExpiry
  rw [hh]

end Sys2Proof.AtSlot
end

section
/-! PROOFS. Promotion, dark handling, and the removal of a ticket, as the whole they leave behind (R71, R72, R84, R89 to R91). -/

namespace Sys2Proof.KitchenRules

-- One theorem after another: as many checks at once take a thread each.
set_option Elab.async false

open Sys2Proof Sys2Proof.Machine Sys2Proof.Statements Sys2Proof.Invariants Sys2Proof.Frames

/-! ### The order of promotion (R72) -/

theorem filter_erase_comm {α : Type} [DecidableEq α] (f : α → Bool) (l : List α) (x : α) :
    (l.erase x).filter f = (l.filter f).erase x := by
  induction l with
  | nil => rfl
  | cons y l ih =>
    by_cases hy : y = x
    · subst hy
      rw [List.erase_cons_head]
      by_cases hf : f y = true
      · rw [List.filter_cons_of_pos hf, List.erase_cons_head]
      · rw [List.filter_cons_of_neg hf, List.erase_of_not_mem fun h => hf (List.mem_filter.1 h).2]
    · rw [List.erase_cons_tail (by simpa using hy)]
      by_cases hf : f y = true
      · rw [List.filter_cons_of_pos hf, List.filter_cons_of_pos hf, List.erase_cons_tail (by simpa using hy), ih]
      · rw [List.filter_cons_of_neg hf, List.filter_cons_of_neg hf, ih]

/-- The ticket that promotion takes is the first of that order. -/
theorem promotionChoice_eq (overflow : List Ticket) (p : Port) : promotionChoice overflow p = (promotionOrder overflow p).head? := by
  unfold promotionChoice promotionOrder
  rw [List.head?_append, List.head?_filter]
  cases h : overflow.find? (fun t => t.station = p && t.rush) with
  | some t => rfl
  | none =>
    rw [Option.none_or, Option.none_or, List.head?_filter]
    refine List.find?_congr fun t ht => ?_
    have := List.find?_eq_none.1 h t ht
    by_cases hp : t.station = p <;> simp_all

theorem mem_promotionOrder {overflow : List Ticket} {p : Port} {t : Ticket} (h : t ∈ promotionOrder overflow p) : t.station = p := by
  unfold promotionOrder at h
  rcases List.mem_append.1 h with h | h <;> simpa using (fun hx => by simp_all : _ → t.station = p) (List.mem_filter.1 h).2

theorem promotionOrder_length_le (overflow : List Ticket) (p : Port) : (promotionOrder overflow p).length ≤ overflow.length := by
  unfold promotionOrder
  rw [List.length_append]
  induction overflow with
  | nil => simp
  | cons t l ih => cases hr : t.rush <;> by_cases hp : t.station = p <;> simp [hr, hp] <;> omega

/-- When the first of a station's order leaves the overflow list, its order goes on with the next, and the others are as they were. -/
theorem promotionOrder_erase {overflow : List Ticket} {p : Port} {t : Ticket} {rest : List Ticket}
    (h : promotionOrder overflow p = t :: rest) (q : Port) :
    promotionOrder (overflow.erase t) q = if q = p then rest else promotionOrder overflow q := by
  have hp : t.station = p := mem_promotionOrder (h ▸ List.mem_cons_self)
  unfold promotionOrder at h ⊢
  rw [filter_erase_comm, filter_erase_comm]
  split
  · rename_i hq
    subst hq
    cases hr : overflow.filter (fun x => x.station = q && x.rush) with
    | cons u l =>
      rw [hr, List.cons_append, List.cons.injEq] at h
      obtain ⟨rfl, hrest⟩ := h
      have hrush : u.rush = true := by
        have := (List.mem_filter.1 (hr ▸ List.mem_cons_self : u ∈ overflow.filter _)).2
        simp_all
      rw [List.erase_cons_head, List.erase_of_not_mem (fun hu => by simp [hrush] at hu), hrest]
    | nil =>
      rw [hr, List.nil_append] at h
      rw [h, List.erase_nil, List.nil_append, List.erase_cons_head]
  · rename_i hq
    have hne : t.station ≠ q := fun e => hq (e.symm.trans hp)
    rw [List.erase_of_not_mem (fun hu => by simp [hne] at hu), List.erase_of_not_mem (fun hu => by simp [hne] at hu)]

/-! ### Promotions counted (R71, R72) -/

/-- `t` is `s` after the first so many tickets of each station's order have entered its queue. -/
structure PromotedBy (s t : State) (count : Port → Nat) : Prop where
  queue : ∀ p, t.station p = { s.station p with
    queue := ((promotionOrder s.overflow p).take (count p)).foldl enterQueue (s.station p).queue }
  left  : ∀ p, promotionOrder t.overflow p = (promotionOrder s.overflow p).drop (count p)
  order : t.overflow.Sublist s.overflow
  rest  : { t with stations := s.stations, overflow := s.overflow } = s

theorem enterQueue_length (queue : List Ticket) (t : Ticket) : (enterQueue queue t).length = queue.length + 1 :=
  (enterQueue_perm queue t).length_eq

theorem foldl_enterQueue_length (l queue : List Ticket) : (l.foldl enterQueue queue).length = queue.length + l.length := by
  induction l generalizing queue with
  | nil => rfl
  | cons t l ih => rw [List.foldl_cons, ih, enterQueue_length, List.length_cons]; omega

theorem promoteOne_of_none {s : State} {p : Port} (h : promotionChoice s.overflow p = none) : s.promoteOne p = s := by
  unfold State.promoteOne
  rw [h]
  split <;> rfl

theorem promoteOne_of_full {s : State} {p : Port} (h : ¬ (s.station p).queue.length < 24) : s.promoteOne p = s := if_neg h

theorem promoteOne_of_some {s : State} {p : Port} {t : Ticket} (hroom : (s.station p).queue.length < 24)
    (h : promotionChoice s.overflow p = some t) : s.promoteOne p = { s with overflow := s.overflow.erase t }.joinQueue p t := by
  unfold State.promoteOne
  rw [if_pos hroom, h]

/-- One more promotion into a queue with room. -/
theorem PromotedBy.promoteOne {s t : State} {count : Port → Nat} (h : PromotedBy s t count) {p : Port}
    (hcount : count p ≤ 24 - (s.station p).queue.length) :
    PromotedBy s (t.promoteOne p) (Function.update count p (min (count p + 1) (24 - (s.station p).queue.length))) := by
  have hlength : (t.station p).queue.length = (s.station p).queue.length + min (count p) (promotionOrder s.overflow p).length := by
    rw [h.queue p]
    exact (foldl_enterQueue_length _ _).trans (by rw [List.length_take])
  -- without a promotion the count may only grow where it no longer matters
  have hsame (hdone : (promotionOrder s.overflow p).length ≤ count p ∨ 24 ≤ (t.station p).queue.length) :
      PromotedBy s t (Function.update count p (min (count p + 1) (24 - (s.station p).queue.length))) := by
    have htake : ∀ q, (promotionOrder s.overflow q).take (Function.update count p (min (count p + 1) (24 - (s.station p).queue.length)) q) =
        (promotionOrder s.overflow q).take (count q) ∧
        (promotionOrder s.overflow q).drop (Function.update count p (min (count p + 1) (24 - (s.station p).queue.length)) q) =
        (promotionOrder s.overflow q).drop (count q) := by
      intro q
      by_cases hq : q = p
      · subst hq
        rw [Function.update_self]
        by_cases hlen : (promotionOrder s.overflow q).length ≤ count q
        · have hle : (promotionOrder s.overflow q).length ≤ min (count q + 1) (24 - (s.station q).queue.length) := by omega
          rw [List.take_of_length_le hlen, List.take_of_length_le hle, List.drop_of_length_le hlen, List.drop_of_length_le hle]
          exact ⟨rfl, rfl⟩
        · have heq : min (count q + 1) (24 - (s.station q).queue.length) = count q := by omega
          rw [heq]
          exact ⟨rfl, rfl⟩
      · rw [Function.update_of_ne hq]
        exact ⟨rfl, rfl⟩
    exact ⟨fun q => by rw [h.queue q, (htake q).1], fun q => by rw [h.left q, (htake q).2], h.order, h.rest⟩
  by_cases hroom : (t.station p).queue.length < 24
  · cases hleft : promotionOrder t.overflow p with
    | nil =>
      rw [promoteOne_of_none (by rw [promotionChoice_eq, hleft]; rfl)]
      refine hsame (.inl ?_)
      rw [h.left p] at hleft
      simpa using hleft
    | cons x rest =>
      have hchoice : promotionChoice t.overflow p = some x := by rw [promotionChoice_eq, hleft]; rfl
      rw [promoteOne_of_some hroom hchoice]
      have hdrop : (promotionOrder s.overflow p).drop (count p) = x :: rest := by rw [← h.left p, hleft]
      have hlt : count p < (promotionOrder s.overflow p).length := by
        have := congrArg List.length hdrop
        simp at this
        omega
      have hmin : min (count p + 1) (24 - (s.station p).queue.length) = count p + 1 := by omega
      have htake : (promotionOrder s.overflow p).take (count p + 1) = (promotionOrder s.overflow p).take (count p) ++ [x] := by
        rw [List.take_add, hdrop]; rfl
      have hdrop' : (promotionOrder s.overflow p).drop (count p + 1) = rest := by
        rw [← List.drop_drop, hdrop]; rfl
      refine ⟨fun q => ?_, fun q => ?_, ?_, ?_⟩
      · by_cases hq : q = p
        · subst hq
          rw [Function.update_self, hmin, htake, List.foldl_append, State.joinQueue, State.station_setStation_self]
          have : State.station { t with overflow := t.overflow.erase x } q = t.station q := rfl
          rw [this, h.queue q]
          rfl
        · rw [Function.update_of_ne hq, State.joinQueue, State.station_setStation_other _ hq]
          exact h.queue q
      · have hover : ({ t with overflow := t.overflow.erase x }.joinQueue p x : State).overflow = t.overflow.erase x := rfl
        rw [hover, promotionOrder_erase hleft]
        by_cases hq : q = p
        · subst hq
          rw [if_pos rfl, Function.update_self, hmin, hdrop']
        · rw [if_neg hq, Function.update_of_ne hq, h.left q]
      · exact (List.erase_sublist).trans h.order
      · exact h.rest
  · rw [promoteOne_of_full hroom]
    exact hsame (.inr (by omega))

theorem PromotedBy.promoteTimes {s : State} {p : Port} (n : Nat) {t : State} {count : Port → Nat} (h : PromotedBy s t count)
    (hcount : count p ≤ 24 - (s.station p).queue.length) :
    PromotedBy s ((List.range n).foldl (fun acc _ => acc.promoteOne p) t)
      (Function.update count p (min (count p + n) (24 - (s.station p).queue.length))) := by
  induction n with
  | zero => simpa [Nat.min_eq_left hcount] using h
  | succ n ih =>
    rw [List.range_succ, List.foldl_append]
    have hstep := ih.promoteOne (p := p) (by rw [Function.update_self]; omega)
    rw [Function.update_self, Function.update_idem] at hstep
    have harith : min (min (count p + n) (24 - (s.station p).queue.length) + 1) (24 - (s.station p).queue.length) =
        min (count p + (n + 1)) (24 - (s.station p).queue.length) := by omega
    rwa [harith] at hstep

/-- Promotion into one station's queue takes in as many of its tickets as it has room for. -/
theorem PromotedBy.promoteStation {s t : State} {count : Port → Nat} (h : PromotedBy s t count) {p : Port} (hcount : count p = 0) :
    PromotedBy s (t.promoteStation p) (Function.update count p (24 - (s.station p).queue.length)) := by
  have hmany := h.promoteTimes (p := p) t.overflow.length (by omega)
  have hlength : (promotionOrder s.overflow p).length ≤ t.overflow.length := by
    have := promotionOrder_length_le t.overflow p
    rwa [h.left p, hcount, List.drop_zero] at this
  have hsame : ∀ q, (promotionOrder s.overflow q).take
        (Function.update count p (min (count p + t.overflow.length) (24 - (s.station p).queue.length)) q) =
      (promotionOrder s.overflow q).take (Function.update count p (24 - (s.station p).queue.length) q) ∧
      (promotionOrder s.overflow q).drop
        (Function.update count p (min (count p + t.overflow.length) (24 - (s.station p).queue.length)) q) =
      (promotionOrder s.overflow q).drop (Function.update count p (24 - (s.station p).queue.length) q) := by
    intro q
    by_cases hq : q = p
    · subst hq
      rw [Function.update_self, Function.update_self]
      by_cases hroom : 24 - (s.station q).queue.length ≤ t.overflow.length
      · rw [hcount, Nat.zero_add, Nat.min_eq_right hroom]; exact ⟨rfl, rfl⟩
      · have h1 : (promotionOrder s.overflow q).length ≤ min (count q + t.overflow.length) (24 - (s.station q).queue.length) := by omega
        have h2 : (promotionOrder s.overflow q).length ≤ 24 - (s.station q).queue.length := by omega
        rw [List.take_of_length_le h1, List.take_of_length_le h2, List.drop_of_length_le h1, List.drop_of_length_le h2]
        exact ⟨rfl, rfl⟩
    · rw [Function.update_of_ne hq, Function.update_of_ne hq]
      exact ⟨rfl, rfl⟩
  exact ⟨fun q => by rw [← (hsame q).1]; exact hmany.queue q, fun q => by rw [← (hsame q).2]; exact hmany.left q, hmany.order, hmany.rest⟩

/-- Promotion at a list of stations, each once. -/
theorem PromotedBy.promoteStations {s : State} (l : List Port) (hl : l.Nodup) {t : State} {count : Port → Nat} (h : PromotedBy s t count)
    (hcount : ∀ p ∈ l, count p = 0) :
    PromotedBy s (l.foldl State.promoteStation t) (fun p => if p ∈ l then 24 - (s.station p).queue.length else count p) := by
  induction l generalizing t count with
  | nil => simpa using h
  | cons p l ih =>
    obtain ⟨hp, hl⟩ := List.nodup_cons.1 hl
    have hrest := ih hl (h.promoteStation (hcount p List.mem_cons_self)) fun q hq => by
      rw [Function.update_of_ne (by rintro rfl; exact hp hq)]
      exact hcount q (List.mem_cons_of_mem _ hq)
    have heq : (fun q => if q ∈ l then 24 - (s.station q).queue.length else
        Function.update count p (24 - (s.station p).queue.length) q) =
        fun q => if q ∈ p :: l then 24 - (s.station q).queue.length else count q := by
      funext q
      by_cases hq : q = p
      · subst hq; simp
      · simp [hq]
    rw [heq] at hrest
    exact hrest

/-- Re-targeting and promotion, whole (R72, R91). -/
theorem promote_promoted (s : State) : Promoted s s.promote := by
  have hall := PromotedBy.promoteStations (s := s.retarget) allPorts (List.nodup_finRange 24) (t := s.retarget) (count := fun _ => 0)
    ⟨fun p => by simp, fun p => by simp, List.Sublist.refl _, rfl⟩ (fun _ _ => rfl)
  have hcount : (fun p => if p ∈ allPorts then 24 - (s.retarget.station p).queue.length else 0) =
      fun p => 24 - (s.station p).queue.length := by
    funext p
    exact if_pos (List.mem_finRange p)
  rw [hcount] at hall
  unfold State.promote
  generalize allPorts.foldl State.promoteStation s.retarget = u at hall ⊢
  refine ⟨hall.queue, hall.left, hall.order, ?_⟩
  have hrest := congrArg (fun v : State => { v with overflow := s.overflow }) hall.rest
  cases s
  exact hrest

/-- Without an overflow ticket nothing is promoted. -/
theorem promoted_of_no_overflow {s t : State} (h : Promoted s t) (hs : s.overflow = []) : t = s := by
  have hover : t.overflow = s.overflow := by
    have := h.order
    rw [hs, List.map_nil, List.sublist_nil] at this
    rw [this, hs]
  have hstations : t.stations = s.stations := by
    refine Vector.ext fun i hi => ?_
    have := h.queue ⟨i, hi⟩
    rw [hs] at this
    simpa [promotionOrder, State.station] using this
  have := h.rest
  rw [← hover, ← hstations] at this
  exact this

end Sys2Proof.KitchenRules
end

section
/-! PROOFS. What a station sends and what it answers to: TAKEN, START, BUMP and RECALL. O36 to O39. -/

namespace Sys2Proof.KitchenRules

-- One theorem after another: as many checks at once take a thread each.
set_option Elab.async false

open Sys2Proof Sys2Proof.Machine Sys2Proof.Statements Sys2Proof.Invariants Sys2Proof.Frames Sys2Proof.AtSlot

/-! ### What a kitchen event leaves -/

/-- A state that has changed a station, and its station alone. -/
theorem stationBecomes_of {s t u : State} {p : Port} {x : Station} (h : t.stations = (u.setStation p x).stations)
    (hu : u.stations = s.stations) : StationBecomes s t p x := by
  have hstation : ∀ q, t.station q = (u.setStation p x).station q := fun q => by simp only [State.station, h]
  refine ⟨(hstation p).trans (State.station_setStation_self _ _ _), fun q hq => ?_⟩
  rw [hstation, State.station_setStation_other _ hq]
  simp only [State.station, hu]

/-- Promotion does not look at the ports, and changes the stations and the overflow list alone. -/
theorem promote_withPorts (w : State) (ports : Vector LanePort 24) :
    ∃ stations overflow, State.promote { w with ports := ports } = { w with ports := ports, stations := stations, overflow := overflow } ∧
      Promoted w { w with stations := stations, overflow := overflow } ∧
      (w.overflow = [] → stations = w.stations ∧ overflow = []) := by
  have h := promote_promoted { w with ports := ports }
  generalize State.promote { w with ports := ports } = u at h ⊢
  have hrest := h.rest
  refine ⟨u.stations, u.overflow, ?_, ⟨h.queue, h.left, h.order, by cases w; rfl⟩, fun hw => ?_⟩
  · have := congrArg (fun v : State => { v with stations := u.stations, overflow := u.overflow }) hrest
    cases u
    exact this
  · have hu := promoted_of_no_overflow h hw
    rw [hu]
    exact ⟨rfl, hw⟩

theorem ticketOf_number {s : State} {p : Port} {n : Nat} {x : Ticket} (h : s.ticketOf p n = some x) : x.number = n := by
  have hx := List.find?_some h
  exact of_decide_eq_true hx

/-- A change that keeps the number changes the ticket of that number. -/
theorem ticketOf_mapTicket {s t : State} {p : Port} {n : Nat} {f : Ticket → Ticket} (hf : ∀ x, (f x).number = x.number)
    (h : (t.station p).queue = (s.station p).queue.map (fun x => if x.number = n then f x else x)) :
    t.ticketOf p n = (s.ticketOf p n).map f := by
  unfold State.ticketOf
  rw [h, List.find?_map]
  have hcomp : ((fun x : Ticket => decide (x.number = n)) ∘ fun x : Ticket => if x.number = n then f x else x) =
      fun x => decide (x.number = n) := by
    funext x
    by_cases hx : x.number = n <;> simp [hx, hf]
  rw [hcomp]
  cases hfind : (s.station p).queue.find? (fun x => decide (x.number = n)) with
  | none => rfl
  | some x =>
    have hx := List.find?_some hfind
    simp only [Option.map_some, of_decide_eq_true hx, if_true]

/-! ### TAKEN (R76) -/

/-- A TAKEN of a station is judged at once, in either phase. -/
theorem exec_taken {s : State} {p : Port} {tag : Byte} {body : List Byte} (hrole : s.role p = .station) (hb : body.length ≤ maxBody) :
    exec (.taken p tag body) s = .next (takeTaken p body (s.delimit p)) := by
  have hsend : maySend ((s.delimit p).role p) .taken = true := by
    have : (s.delimit p).role p = .station := hrole
    rw [this]; rfl
  have hused : s.role p ≠ .unused := by rw [hrole]; nofun
  rw [exec_of_frame (k := .taken) rfl, receive, if_neg (Nat.not_lt.2 hb), if_neg hused, State.judgeKind, if_pos hsend, if_pos rfl]

/-- What a TAKEN of the revision sent leaves of its station. -/
theorem showTicket_eq (s : State) (p : Port) (n : Nat) : s.showTicket p n = s.setStation p { s.station p with
    queue := (s.station p).queue.map (fun y => if y.number = n then { y with state := .shown } else y),
    sent := (s.station p).sent.erase n,
    ackTimer := if (s.station p).sent.erase n = [] then none else some (s.now + 100 * s.timers.ack) } := by
  simp only [State.showTicket, State.mapTicket, State.restartAck, State.station_setStation_self, State.setStation_setStation]
  rfl

/-- Settles O36, row by row of R76's table. -/
theorem takenAnswersTicket : Obligations.TakenAnswersTicket := by
  unfold Obligations.TakenAnswersTicket
  intro s p tag hrole
  have hexec (t0 t1 rev : Byte) : exec (.taken p tag [t0, t1, rev]) s = .next (takeTaken p [t0, t1, rev] (s.delimit p)) :=
    exec_taken hrole (by simp [maxBody])
  have hports : ∀ q, q ≠ p → (s.delimit p).port q = s.port q := fun q hq => State.port_setPort_other _ hq _
  refine ⟨fun t0 t1 rev x hx hsent hrev => ?_, fun t0 t1 rev x hx hstate hrev => ?_, fun t0 t1 rev hno => ?_, fun body hb hlen => ?_⟩
  · have hrun : takeTaken p [t0, t1, rev] (s.delimit p) = (s.delimit p).showTicket p (read2 t0 t1) := by
      have hx' : (s.delimit p).ticketOf p (read2 t0 t1) = some x := hx
      simp only [takeTaken, readTaken, hx', hsent, hrev, and_self, if_true]
    refine ⟨_, (hexec t0 t1 rev).trans (congrArg _ (hrun.trans (showTicket_eq _ _ _))), ?_,
      stationBecomes_of (u := s) rfl rfl, State.port_setPort_self _ _ _, hports, by cases s; rfl⟩
    rw [ticketOf_mapTicket (s := s) (f := fun y => { y with state := .shown }) (fun _ => rfl), hx]
    · rfl
    · rw [State.station_setStation_self]; rfl
  · have hrun : takeTaken p [t0, t1, rev] (s.delimit p) = (s.delimit p).restartAck p := by
      have hx' : (s.delimit p).ticketOf p (read2 t0 t1) = some x := hx
      simp only [takeTaken, readTaken, hx', hrev, and_false, if_false, hstate, ne_eq, not_false_eq_true, and_self, if_true]
    exact ⟨_, (hexec t0 t1 rev).trans (congrArg _ hrun), stationBecomes_of (u := s) rfl rfl, State.port_setPort_self _ _ _, hports,
      by cases s; rfl⟩
  · refine (hexec t0 t1 rev).trans (congrArg _ ?_)
    rcases hno with hnone | ⟨x, hx, hstate⟩
    · have hx' : (s.delimit p).ticketOf p (read2 t0 t1) = none := hnone
      simp only [takeTaken, readTaken, hx']
      rfl
    · have hx' : (s.delimit p).ticketOf p (read2 t0 t1) = some x := hx
      rcases hstate with hstate | hstate <;>
        simp only [takeTaken, readTaken, hx', hstate, reduceCtorEq, false_and, or_self, if_false] <;> rfl
  · refine (exec_taken hrole hb).trans (congrArg _ ?_)
    have hread : readTaken body = none := by
      unfold readTaken
      split
      · simp at hlen
      · rfl
    simp only [takeTaken, hread]
    rfl

/-! ### START (R77) -/

/-- Settles O37. -/
theorem startSetsStartedFlag : Obligations.StartSetsStartedFlag := by
  unfold Obligations.StartSetsStartedFlag
  intro s p tag t0 t1 ha
  have hexec := exec_of_admitted (k := .start) (tag := tag) (body := [t0, t1]) rfl (by simp [maxBody]) ha nofun
  refine ⟨fun x hx hstate => ?_, fun hno => ?_⟩
  · have hrun : takeStart p [t0, t1] (afterTaking s p .start tag) =
        ((afterTaking s p .start tag).mapTicket p (read2 t0 t1) (fun u => { u with started := true })).reply p .ok (num2 (read2 t0 t1)) := by
      have hx' : (afterTaking s p .start tag).ticketOf p (read2 t0 t1) = some x := hx
      simp only [takeStart, readNumber, hx', hstate, if_true]
    refine exists_answered (hexec.trans (congrArg _ hrun)) rfl fun hreply hothers => ?_
    refine ⟨?_, ⟨_, stationBecomes_of (u := s) rfl rfl, rfl⟩, hreply, hothers, by cases s; rfl⟩
    rw [ticketOf_mapTicket (s := s) (f := fun y => { y with started := true }) (fun _ => rfl), hx]
    · rfl
    · exact congrArg Station.queue (State.station_setStation_self _ _ _)
  · refine ⟨_, hexec, ?_⟩
    have hrun : takeStart p [t0, t1] (afterTaking s p .start tag) = (afterTaking s p .start tag).refuse p .unknownTicket {} := by
      rcases hno with hnone | ⟨x, hx, hstate⟩
      · have hx' : (afterTaking s p .start tag).ticketOf p (read2 t0 t1) = none := hnone
        simp only [takeStart, readNumber, hx']
      · have hx' : (afterTaking s p .start tag).ticketOf p (read2 t0 t1) = some x := hx
        rcases hstate with hstate | hstate <;>
          simp only [takeStart, readNumber, hx', hstate, reduceCtorEq, or_self, if_false]
    exact hrun.trans (refuse_afterTaking s p .start tag _ _)

/-! ### BUMP (R78 to R80) -/

/-- Where a ticket enters a queue (R71). -/
theorem enterQueue_spec (queue : List Ticket) (x : Ticket) :
    (x.rush = false → enterQueue queue x = queue ++ [x]) ∧
    (x.rush = true → (∀ y ∈ queue, y.rush = false) → enterQueue queue x = x :: queue) ∧
    (x.rush = true → ∀ front y back, queue = front ++ y :: back → y.rush = true → (∀ z ∈ back, z.rush = false) →
      enterQueue queue x = front ++ y :: x :: back) := by
  refine ⟨fun h => by simp [enterQueue, h], fun h hall => ?_, fun h front y back hqueue hy hback => ?_⟩
  · have hbehind : queue.reverse.takeWhile (fun z => !z.rush) = queue.reverse :=
      List.takeWhile_eq_self_iff.2 fun z hz => by simp [hall z (List.mem_reverse.1 hz)]
    simp [enterQueue, h, hbehind]
  · have hbehind : queue.reverse.takeWhile (fun z => !z.rush) = back.reverse := by
      rw [hqueue, List.reverse_append, List.reverse_cons, List.append_assoc, List.takeWhile_append_of_pos]
      · simp [hy]
      · intro z hz; simp [hback z (List.mem_reverse.1 hz)]
    have hcut : queue.length - back.length = (front ++ [y]).length := by rw [hqueue]; simp; omega
    have hsplit : queue = (front ++ [y]) ++ back := by rw [hqueue]; simp
    simp only [enterQueue, h, if_true, hbehind, List.length_reverse, hcut]
    rw [hsplit, List.take_left' rfl, List.drop_left' rfl]
    simp

/-- The station of a BUMP, before promotion. -/
def bumpedStation (s : State) (p : Port) (x : Ticket) : Station :=
  { leftSent s (s.station p) x.number with
    queue := (s.station p).queue.filter (fun y => y.number ≠ x.number),
    recalls := ({ ticket := x, gone := false } :: (s.station p).recalls).take 4, lastBump := some s.now }

theorem bumpTicket_eq (s : State) (p : Port) (x : Ticket) : s.bumpTicket p x =
    ((s.setStation p (bumpedStation s p x)).setDir x.tab { s.dir x.tab with live := (s.dir x.tab).live - 1 }).promote := by
  unfold State.bumpTicket State.lowerLive
  rw [removeFromQueue_eq]
  refine congrArg State.promote ?_
  generalize hx : { leftSent s (s.station p) x.number with
    queue := (s.station p).queue.filter (fun y => y.number ≠ x.number) } = left
  have hstation : ((s.setStation p left).setDir x.tab
      { (s.setStation p left).dir x.tab with live := ((s.setStation p left).dir x.tab).live - 1 }).station p = left :=
    State.station_setStation_self s p left
  have hbumped : ({ left with recalls := pushRecall left.recalls x, lastBump := some s.now } : Station) = bumpedStation s p x := by
    rw [← hx]; rfl
  dsimp only
  rw [hstation, hbumped]
  have hset := s.setStation_setStation p left (bumpedStation s p x)
  exact congrArg (fun u : State => u.setDir x.tab { s.dir x.tab with live := (s.dir x.tab).live - 1 }) hset

/-- Settles O38. -/
theorem bumpMovesTicketToRecallList : Obligations.BumpMovesTicketToRecallList := by
  unfold Obligations.BumpMovesTicketToRecallList
  refine ⟨fun s p tag t0 t1 ha => ?_, enterQueue_spec⟩
  have hexec := exec_of_admitted (k := .bump) (tag := tag) (body := [t0, t1]) rfl (by simp [maxBody]) ha nofun
  have hguard : (afterTaking s p .bump tag).guardsBump p = s.guardsBump p := rfl
  refine ⟨fun x hopen hx hstate => ?_, fun hopen hno => ?_, fun hclosed => ?_⟩
  · have hnumber := ticketOf_number hx
    have hrun : takeBump p [t0, t1] (afterTaking s p .bump tag) =
        ((afterTaking s p .bump tag).bumpTicket p x).reply p .ok (num2 (read2 t0 t1) ++ num2 x.tab) := by
      have hx' : (afterTaking s p .bump tag).ticketOf p (read2 t0 t1) = some x := hx
      simp only [takeBump, readNumber, hguard, hopen, Bool.false_eq_true, if_false, hx', hstate]
    rw [bumpTicket_eq] at hrun
    have hbumped : bumpedStation (afterTaking s p .bump tag) p x =
        { leftSent s (s.station p) (read2 t0 t1) with
          queue := (s.station p).queue.filter (fun y => y.number ≠ read2 t0 t1),
          recalls := ({ ticket := x, gone := false } :: (s.station p).recalls).take 4, lastBump := some s.now } := by
      unfold bumpedStation
      rw [hnumber]
      rfl
    rw [hbumped] at hrun
    intro bumped
    generalize hw : (s.setStation p bumped).setDir x.tab { s.dir x.tab with live := (s.dir x.tab).live - 1 } = w
    have hwhole : (((afterTaking s p .bump tag).setStation p bumped).setDir x.tab
        { (afterTaking s p .bump tag).dir x.tab with live := ((afterTaking s p .bump tag).dir x.tab).live - 1 }) =
        { w with ports := (afterTaking s p .bump tag).ports } := by rw [← hw]; rfl
    obtain ⟨stations, overflow, hpromote, hpromoted, hnone⟩ := promote_withPorts w (afterTaking s p .bump tag).ports
    replace hrun := hrun.trans (congrArg (fun u : State => State.reply u p .ok (num2 (read2 t0 t1) ++ num2 x.tab))
      ((congrArg State.promote hwhole).trans hpromote))
    obtain ⟨t, ht, h⟩ : ∃ t, exec (.bump p tag [t0, t1]) s = .next t ∧ t.stations = stations ∧ t.overflow = overflow ∧
        (s.overflow = [] → StationBecomes s t p bumped ∧ t.overflow = []) ∧
        EntryBecomes s t x.tab { s.dir x.tab with live := (s.dir x.tab).live - 1 } ∧
        RepliedAt s t p .bump tag .ok (num2 (read2 t0 t1) ++ num2 x.tab) ∧ OtherPortsKept s t p ∧
        { t with ports := s.ports, stations := s.stations, overflow := s.overflow, directory := s.directory } = s := by
      subst hw
      refine exists_answered (hexec.trans (congrArg _ hrun)) rfl fun hreply hothers =>
        ⟨rfl, rfl, fun he => ?_, entryBecomes_of (u := s) rfl fun _ _ => rfl, hreply, hothers, by cases s; rfl⟩
      obtain ⟨rfl, rfl⟩ := hnone he
      exact ⟨stationBecomes_of (u := s) rfl rfl, rfl⟩
    exact ⟨t, _, ht, hpromoted, h⟩
  · have hrun : takeBump p [t0, t1] (afterTaking s p .bump tag) = (afterTaking s p .bump tag).refuse p .unknownTicket {} := by
      rcases hno with hnone | ⟨x, hx, hstate⟩
      · have hx' : (afterTaking s p .bump tag).ticketOf p (read2 t0 t1) = none := hnone
        simp only [takeBump, readNumber, hguard, hopen, Bool.false_eq_true, if_false, hx']
      · have hx' : (afterTaking s p .bump tag).ticketOf p (read2 t0 t1) = some x := hx
        simp only [takeBump, readNumber, hguard, hopen, Bool.false_eq_true, if_false, hx', hstate, if_true]
    exact ⟨_, hexec, hrun.trans (refuse_afterTaking s p .bump tag _ _)⟩
  · have hrun : takeBump p [t0, t1] (afterTaking s p .bump tag) = (afterTaking s p .bump tag).refuse p .ignored {} := by
      simp only [takeBump, readNumber, hguard, hclosed, if_true]
    exact ⟨_, hexec, hrun.trans (refuse_afterTaking s p .bump tag _ _)⟩

/-! ### RECALL (R81, R67) -/

/-- The number R67 gives is the first from the counter on that no live ticket has. -/
theorem freshNumber_first {s : State} (h1 : 1 ≤ s.ticketCounter) (h2 : s.ticketCounter ≤ 65535) (hlen : s.liveTickets.length ≤ 624) :
    1 ≤ s.freshNumber ∧ s.freshNumber ≤ 65535 ∧ s.isLiveNumber s.freshNumber = false ∧
    ∃ k, s.freshNumber = nextNumber^[k] s.ticketCounter ∧
      ∀ j, j < k → s.isLiveNumber (nextNumber^[j] s.ticketCounter) = true := by
  obtain ⟨⟨hlow, hhigh⟩, hfree⟩ := freshNumber_spec h1 h2 (by omega)
  obtain ⟨k, -, he, hall⟩ := firstFree_spec (s.liveTickets.map Ticket.number) s.liveTickets.length s.ticketCounter
  refine ⟨hlow, hhigh, ?_, k, he, fun j hj => (isLiveNumber_iff s _).2 (hall.1 j hj)⟩
  exact Bool.eq_false_iff.2 fun h => hfree ((isLiveNumber_iff s _).1 h)

/-- Settles O39. -/
theorem recallPutsTicketAtHead : Obligations.RecallPutsTicketAtHead := by
  unfold Obligations.RecallPutsTicketAtHead
  refine ⟨fun s p tag e rest ha hrecalls => ?_, fun s => freshNumber_first⟩
  have hexec := exec_of_admitted (k := .recallTicket) (tag := tag) (body := []) rfl (by simp [maxBody]) ha nofun
  have hrecalls' : ((afterTaking s p .recallTicket tag).station p).recalls = e :: rest := hrecalls
  have hqueue : ((afterTaking s p .recallTicket tag).station p).queue = (s.station p).queue := rfl
  refine ⟨fun hstays hroom => ?_, fun hgone => ?_, fun hstays hfull => ?_⟩
  · have hrun : takeRecall p [] (afterTaking s p .recallTicket tag) =
        ((afterTaking s p .recallTicket tag).recallEntry p e.ticket).reply p .ok
          (num2 (s.recallNumber e.ticket) ++ num2 e.ticket.tab) := by
      simp only [takeRecall, emptyBody, if_true, hrecalls', hstays, hqueue, Nat.not_le.2 hroom, if_false,
        Bool.false_eq_true]
      rfl
    rw [recallEntry_eq] at hrun
    have hstation : recalledStation (afterTaking s p .recallTicket tag) p e.ticket =
        { s.station p with
          recalls := rest,
          queue := { e.ticket with number := s.recallNumber e.ticket, station := p, state := .queued, everTransmitted := false } ::
            (s.station p).queue } := by
      unfold recalledStation
      rw [hrecalls']
      rfl
    rw [hstation] at hrun
    obtain ⟨t, ht, h⟩ : ∃ t, exec (.recallTicket p tag []) s = .next t ∧
        t.ticketCounter = (if s.isLiveNumber e.ticket.number then nextNumber (s.recallNumber e.ticket) else s.ticketCounter) ∧
        StationBecomes s t p { s.station p with
          recalls := rest,
          queue := { e.ticket with number := s.recallNumber e.ticket, station := p, state := .queued, everTransmitted := false } ::
            (s.station p).queue } ∧
        EntryBecomes s t e.ticket.tab { s.dir e.ticket.tab with live := (s.dir e.ticket.tab).live + 1 } ∧
        RepliedAt s t p .recallTicket tag .ok (num2 (s.recallNumber e.ticket) ++ num2 e.ticket.tab) ∧ OtherPortsKept s t p ∧
        { t with
          ports := s.ports, stations := s.stations, directory := s.directory, ticketCounter := s.ticketCounter } = s := by
      refine exists_answered (hexec.trans (congrArg _ hrun)) (by cases s; rfl) fun hreply hothers => ?_
      exact ⟨rfl, stationBecomes_of (u := s) (by cases s; rfl) rfl, entryBecomes_of (u := s) (by cases s; rfl) fun _ _ => rfl,
        hreply, hothers, by cases s; rfl⟩
    obtain ⟨hcounter, h⟩ := h
    refine ⟨t, s.recallNumber e.ticket, ht, fun hfree => ?_, fun hlive => ?_, h⟩
    · rw [hfree, if_neg Bool.false_ne_true] at hcounter
      exact ⟨by rw [State.recallNumber, hfree, if_neg Bool.false_ne_true], hcounter⟩
    · rw [hlive, if_pos rfl] at hcounter
      exact ⟨by rw [State.recallNumber, hlive, if_pos rfl], hcounter⟩
  · have hrun : takeRecall p [] (afterTaking s p .recallTicket tag) =
        ((afterTaking s p .recallTicket tag).setStation p { s.station p with recalls := rest }).refuse p .gone {} := by
      simp only [takeRecall, emptyBody, if_true, hrecalls', hgone]
      rfl
    exact exists_answered (hexec.trans (congrArg _ hrun)) rfl fun hreply hothers =>
      ⟨stationBecomes_of (u := s) rfl rfl, hreply, hothers, by cases s; rfl⟩
  · have hrun : takeRecall p [] (afterTaking s p .recallTicket tag) = (afterTaking s p .recallTicket tag).refuse p .kitchenFull {} := by
      simp only [takeRecall, emptyBody, if_true, hrecalls', hstays, hqueue, hfull, if_false, Bool.false_eq_true]
    exact ⟨_, hexec, hrun.trans (refuse_afterTaking s p .recallTicket tag _ _)⟩

end Sys2Proof.KitchenRules
end

section
/-! PROOFS. HELLO, dark handling, and the timers of the kitchen unit. O35, O40. -/

namespace Sys2Proof.KitchenRules

-- One theorem after another: as many checks at once take a thread each.
set_option Elab.async false

open Sys2Proof Sys2Proof.Machine Sys2Proof.Statements Sys2Proof.Invariants Sys2Proof.Frames Sys2Proof.AtSlot Sys2Proof.Office

/-! ### HELLO (R87, R92) -/

/-- A notice that is raised under a condition changes the notices and the dropped mark alone. -/
theorem raise_if {s u : State} {b : Bool} (n : Notice) (hmask : u.mask = s.mask) (hnotices : u.notices = s.notices)
    (hdropped : u.dropped = s.dropped) : ∃ notices dropped,
      (if b then u else u.raise n) = { u with notices := notices, dropped := dropped } ∧
      (b = true → notices = s.notices ∧ dropped = s.dropped) ∧
      (b = false → notices = (s.raise n).notices ∧ dropped = (s.raise n).dropped) := by
  cases b with
  | true => exact ⟨u.notices, u.dropped, rfl, fun _ => ⟨hnotices, hdropped⟩, nofun⟩
  | false => exact ⟨(u.raise n).notices, (u.raise n).dropped, State.raise_frame u n, nofun, fun _ => raise_congr n hmask hnotices hdropped⟩

/-- Settles O35. -/
theorem helloMakesStationReady : Obligations.HelloMakesStationReady := by
  intro s p tag ha helloed
  have hexec := exec_of_admitted (k := .hello) (tag := tag) (body := []) rfl (by simp [maxBody]) ha nofun
  obtain ⟨stations, overflow, hpromote, hpromoted, hnone⟩ := promote_withPorts (s.setStation p helloed) (afterTaking s p .hello tag).ports
  have hhello : State.helloStation (afterTaking s p .hello tag) p =
      (fun u : State => if (s.station p).ready then u else u.raise (.station p true .hello 0 (u.station p).queue.length))
        (State.promote { s.setStation p helloed with ports := (afterTaking s p .hello tag).ports }) := rfl
  rw [hpromote] at hhello
  obtain ⟨notices, dropped, hraise, hready, hdark⟩ := raise_if (s := s) (b := (s.station p).ready)
    (u := { s.setStation p helloed with ports := (afterTaking s p .hello tag).ports, stations := stations, overflow := overflow })
    (.station p true .hello 0 stations[p.val].queue.length) rfl rfl rfl
  replace hhello := hhello.trans hraise
  have hrun : takeHello p [] (afterTaking s p .hello tag) = (State.helloStation (afterTaking s p .hello tag) p).reply p .ok
      (num1 ((State.helloStation (afterTaking s p .hello tag) p).station p).queue.length) := rfl
  rw [hhello] at hrun
  obtain ⟨t, ht, h⟩ : ∃ t, exec (.hello p tag []) s = .next t ∧ t.stations = stations ∧ t.overflow = overflow ∧
      (s.overflow = [] → StationBecomes s t p helloed ∧ t.overflow = []) ∧
      RepliedAt s t p .hello tag .ok (num1 (t.station p).queue.length) ∧ OtherPortsKept s t p ∧
      ((s.station p).ready = true → t.notices = s.notices ∧ t.dropped = s.dropped) ∧
      ((s.station p).ready = false →
        t.notices = (s.raise (.station p true .hello 0 (t.station p).queue.length)).notices ∧
        t.dropped = (s.raise (.station p true .hello 0 (t.station p).queue.length)).dropped) ∧
      { t with
        ports := s.ports, stations := s.stations, overflow := s.overflow, notices := s.notices, dropped := s.dropped } = s := by
    refine exists_answered (hexec.trans (congrArg _ hrun)) rfl fun hreply hothers =>
      ⟨rfl, rfl, fun he => ?_, hreply, hothers, hready, hdark, by cases s; rfl⟩
    obtain ⟨rfl, rfl⟩ := hnone he
    exact ⟨stationBecomes_of (u := s) rfl rfl, rfl⟩
  exact ⟨t, _, ht, hpromoted, h⟩

/-! ### Dark handling (R89 to R91) -/

theorem setStation_comm (s : State) {p q : Port} (h : p ≠ q) (x y : Station) :
    (s.setStation p x).setStation q y = (s.setStation q y).setStation p x := by
  have : p.val ≠ q.val := fun e => h (Fin.ext e)
  simp only [State.setStation]
  rw [Vector.set_comm _ _ this]

/-- The switch when the tickets in `moved` have left a dark station, those in `toQueue` for its alternate and those in `toOverflow` for
the overflow list. -/
def movedTo (s : State) (p a : Port) (dark : Station) (toQueue toOverflow : List Ticket) : State :=
  { (s.setStation p { dark with queue := dark.queue.filter (fun x => x ∉ toQueue ++ toOverflow) }).setStation a
      { s.station a with queue := (toQueue.map (arrivesAt a)).foldl enterQueue (s.station a).queue } with
    overflow := s.overflow ++ toOverflow.map (arrivesAt a) }

theorem movedTo_alternate (s : State) (p a : Port) (dark : Station) (toQueue toOverflow : List Ticket) :
    (movedTo s p a dark toQueue toOverflow).station a =
      { s.station a with queue := (toQueue.map (arrivesAt a)).foldl enterQueue (s.station a).queue } :=
  State.station_setStation_self _ _ _

theorem movedTo_station (s : State) {p a : Port} (h : p ≠ a) (dark : Station) (toQueue toOverflow : List Ticket) :
    (movedTo s p a dark toQueue toOverflow).station p =
      { dark with queue := dark.queue.filter (fun x => x ∉ toQueue ++ toOverflow) } :=
  (State.station_setStation_other _ h _).trans (State.station_setStation_self _ _ _)

/-- Among tickets with numbers of their own, those left behind by one more move. -/
theorem filter_not_moved {queue : List Ticket} (hn : (queue.map Ticket.number).Nodup) {x : Ticket} (hx : x ∈ queue) (moved : List Ticket) :
    (queue.filter (fun y => y ∉ moved)).filter (fun y => y.number ≠ x.number) = queue.filter (fun y => y ∉ moved ++ [x]) := by
  rw [List.filter_filter]
  refine List.filter_congr fun y hy => ?_
  have hiff : y.number = x.number ↔ y = x := ⟨fun e => List.inj_on_of_nodup_map hn hy hx e, fun e => e ▸ rfl⟩
  by_cases hyx : y = x <;> simp [hiff, hyx]

theorem movedTo_none (s : State) {p a : Port} (h : p ≠ a) (dark : Station) : movedTo s p a dark [] [] = s.setStation p dark := by
  have hself : (s.setStation p dark).setStation a (s.station a) = s.setStation p dark := by
    rw [← State.station_setStation_other s (Ne.symm h) dark]
    exact setStation_station _ _
  have hqueue : dark.queue.filter (fun x => decide (x ∉ ([] : List Ticket) ++ [])) = dark.queue := by simp
  unfold movedTo
  rw [hqueue, List.map_nil, List.append_nil]
  exact congrArg (fun u : State => { u with overflow := s.overflow }) hself

/-- A ticket that leaves the dark station after those moved before it. -/
theorem withoutTicket_movedTo (s : State) {p a : Port} (h : p ≠ a) {dark : Station} (hn : (dark.queue.map Ticket.number).Nodup)
    {x : Ticket} (hx : x ∈ dark.queue) (toQueue toOverflow : List Ticket) :
    withoutTicket (movedTo s p a dark toQueue toOverflow) p x =
      { (s.setStation p { dark with queue := dark.queue.filter (fun y => y ∉ toQueue ++ toOverflow ++ [x]) }).setStation a
        { s.station a with queue := (toQueue.map (arrivesAt a)).foldl enterQueue (s.station a).queue } with
        overflow := s.overflow ++ toOverflow.map (arrivesAt a) } := by
  unfold withoutTicket
  rw [movedTo_station s h]
  dsimp only
  rw [filter_not_moved hn hx]
  unfold movedTo
  have hcomm := setStation_comm (s.setStation p { dark with queue := dark.queue.filter (fun y => y ∉ toQueue ++ toOverflow) }) (Ne.symm h)
    { s.station a with queue := (toQueue.map (arrivesAt a)).foldl enterQueue (s.station a).queue }
    { dark with queue := dark.queue.filter (fun y => y ∉ toQueue ++ toOverflow ++ [x]) }
  rw [State.setStation_setStation] at hcomm
  exact congrArg (fun u : State => { u with overflow := s.overflow ++ toOverflow.map (arrivesAt a) }) hcomm

theorem joinQueue_moved (u : State) (a : Port) (y : Station) (o : List Ticket) (x : Ticket) :
    State.joinQueue { u.setStation a y with overflow := o } a x =
      { u.setStation a { y with queue := enterQueue y.queue x } with overflow := o } := by
  have hstation : State.station { u.setStation a y with overflow := o } a = y := State.station_setStation_self u a y
  unfold State.joinQueue
  rw [hstation]
  exact congrArg (fun v : State => { v with overflow := o }) (u.setStation_setStation a y { y with queue := enterQueue y.queue x })

/-- The moves of R90 one after another: into the alternate's queue while it has room, then into the overflow list while that has. -/
theorem moveTickets_eq {s : State} {p a : Port} (h : p ≠ a) {dark : Station} (hn : (dark.queue.map Ticket.number).Nodup)
    (l : List Ticket) (hl : ∀ x ∈ l, x ∈ dark.queue) :
    l.foldl (State.moveTicket p a) (s.setStation p dark, 0) =
      (movedTo s p a dark (l.take (24 - (s.station a).queue.length))
        ((l.drop (24 - (s.station a).queue.length)).take (48 - s.overflow.length)),
      (l.take (24 - (s.station a).queue.length)).length +
        ((l.drop (24 - (s.station a).queue.length)).take (48 - s.overflow.length)).length) := by
  induction l using List.reverseRecOn with
  | nil => simp only [List.foldl_nil, List.take_nil, List.drop_nil, movedTo_none s h, List.length_nil]
  | append_singleton l x ih =>
    have hx : x ∈ dark.queue := hl x (by simp)
    rw [List.foldl_append, ih fun y hy => hl y (by simp [hy]), List.foldl_cons, List.foldl_nil]
    generalize hk : 24 - (s.station a).queue.length = k
    generalize hm : 48 - s.overflow.length = m
    have hqueue : ((movedTo s p a dark (l.take k) ((l.drop k).take m)).station a).queue.length = (s.station a).queue.length + min k l.length := by
      rw [movedTo_alternate]
      exact (foldl_enterQueue_length _ _).trans (by rw [List.length_map, List.length_take])
    have hover : (movedTo s p a dark (l.take k) ((l.drop k).take m)).overflow.length = s.overflow.length + min m (l.length - k) := by
      show (s.overflow ++ ((l.drop k).take m).map (arrivesAt a)).length = _
      rw [List.length_append, List.length_map, List.length_take, List.length_drop]
    rcases moveTicket_cases p a (movedTo s p a dark (l.take k) ((l.drop k).take m), (l.take k).length + ((l.drop k).take m).length) x with
      ⟨hroom, e⟩ | ⟨hfull, hroom, e⟩ | ⟨hfull, hnoRoom, e⟩ <;> dsimp only at * <;> rw [e]
    · have hlen : l.length < k := by omega
      have htake : l.take k = l := List.take_of_length_le (by omega)
      have htake' : (l ++ [x]).take k = l ++ [x] := List.take_of_length_le (by simp; omega)
      have hdrop : l.drop k = [] := List.drop_of_length_le (by omega)
      have hdrop' : (l ++ [x]).drop k = [] := List.drop_of_length_le (by simp; omega)
      rw [withoutTicket_movedTo s h hn hx, htake, htake', hdrop, hdrop', List.take_nil, joinQueue_moved]
      refine Prod.ext ?_ (by simp)
      have hleft : dark.queue.filter (fun y => decide (y ∉ l ++ [] ++ [x])) = dark.queue.filter (fun y => decide (y ∉ (l ++ [x]) ++ [])) := by
        simp
      dsimp only
      rw [hleft]
      unfold movedTo
      rw [List.map_append, List.foldl_append]
      rfl
    · have htake : (l ++ [x]).take k = l.take k := List.take_append_of_le_length (by omega)
      have hdrop : (l ++ [x]).drop k = l.drop k ++ [x] := List.drop_append_of_le_length (by omega)
      have hall : (l.drop k).take m = l.drop k := List.take_of_length_le (by rw [List.length_drop]; omega)
      have hall' : (l.drop k ++ [x]).take m = l.drop k ++ [x] := List.take_of_length_le (by simp; omega)
      rw [withoutTicket_movedTo s h hn hx, htake, hdrop, hall, hall']
      refine Prod.ext ?_ (by simp; omega)
      have hleft : dark.queue.filter (fun y => decide (y ∉ l.take k ++ l.drop k ++ [x])) =
          dark.queue.filter (fun y => decide (y ∉ l.take k ++ (l.drop k ++ [x]))) := by rw [List.append_assoc]
      have hover : s.overflow ++ (l.drop k ++ [x]).map (arrivesAt a) = s.overflow ++ (l.drop k).map (arrivesAt a) ++ [arrivesAt a x] := by
        simp
      dsimp only
      rw [hleft]
      unfold movedTo
      rw [hover]
    · have htake : (l ++ [x]).take k = l.take k := List.take_append_of_le_length (by omega)
      have hdrop : (l ++ [x]).drop k = l.drop k ++ [x] := List.drop_append_of_le_length (by omega)
      rw [htake, hdrop, List.take_append_of_le_length (by rw [List.length_drop]; omega)]

theorem darkened_numbers (x : Station) : (darkened x).queue.map Ticket.number = x.queue.map Ticket.number := by
  rw [darkened, List.map_map]
  refine List.map_congr_left fun y _ => ?_
  simp only [Function.comp_apply]
  split <;> rfl

/-- Dark handling, whole. -/
theorem darkHandling_handled (s : State) (p : Port) : DarkHandled s (s.darkHandling p).1 p (s.darkHandling p).2 := by
  have halternate : (s.setStation p (darkened (s.station p))).readyAlternate p = s.readyAlternate p := by
    refine Option.ext fun a => readyAlternate_some.trans (Iff.trans ?_ readyAlternate_some.symm)
    rw [State.station_setStation_self]
    refine and_congr_right fun _ => and_congr_right fun ha => ?_
    rw [State.station_setStation_other _ ha]
    rfl
  rw [darkHandling_eq, goDark_eq]
  dsimp only
  unfold State.moveToAlternate
  rw [halternate]
  refine ⟨fun hnone => ?_, fun a ha hn => ?_⟩
  · rw [hnone]
    exact ⟨rfl, promote_promoted _⟩
  · obtain ⟨-, hpa, -, -⟩ := readyAlternate_some.1 ha
    rw [ha]
    dsimp only
    rw [State.station_setStation_self, moveTickets_eq (Ne.symm hpa) (by rw [darkened_numbers]; exact hn) _ fun x hx => (List.mem_filter.1 hx).1]
    exact ⟨rfl, promote_promoted _⟩

/-! ### The timers of the kitchen unit (R88, R96) -/

theorem stations_map_station (s : State) (f : Station → Station) (p : Port) :
    State.station { s with stations := s.stations.map f } p = f (s.station p) := by
  simp [State.station]

/-- Settles O40. -/
theorem timersDarkenAndRaiseResync : Obligations.TimersDarkenAndRaiseResync := by
  unfold Obligations.TimersDarkenAndRaiseResync
  refine ⟨fun s p d hd => ?_, fun s d hd => ?_⟩
  · have hexec : exec (.ackTimerExpiry p) s = .next (s.ackExpiry p d) := by
      show execAckTimerExpiry p s = _
      unfold execAckTimerExpiry
      rw [hd]
    have hhandled := darkHandling_handled { s with now := max s.now d } p
    have hrun : s.ackExpiry p d = ({ s with now := max s.now d }.darkHandling p).1.raise
      (.station p false .ackTimeout ({ s with now := max s.now d }.darkHandling p).2
        (({ s with now := max s.now d }.darkHandling p).1.station p).queue.length) := rfl
    generalize ({ s with now := max s.now d } : State).darkHandling p = r at hhandled hrun
    obtain ⟨u, moved⟩ := r
    rw [hrun] at hexec
    refine ⟨_, u, moved, hexec, hhandled, rfl, fun halternate hover => ?_⟩
    obtain ⟨rfl, hpromoted⟩ := hhandled.1 halternate
    have hu := promoted_of_no_overflow hpromoted hover
    have hstation : State.station { s with now := max s.now d } p = s.station p := rfl
    dsimp only at hu
    rw [hstation] at hu
    subst hu
    have hqueue : ((State.setStation { s with now := max s.now d } p (darkened (s.station p))).station p).queue.length =
        (s.station p).queue.length := by
      rw [State.station_setStation_self]; simp [darkened]
    dsimp only
    rw [hqueue]
    generalize hn : Notice.station p false .ackTimeout 0 (s.station p).queue.length = n
    obtain ⟨hnotices, hdropped⟩ := raise_congr (s := s)
      (u := State.setStation { s with now := max s.now d } p (darkened (s.station p))) n rfl rfl rfl
    rw [State.raise_frame]
    refine ⟨rfl, rfl, stationBecomes_of (u := s) rfl rfl, hnotices, hdropped, by cases s; rfl⟩
  · have hperiod : s.imagePeriod = { s with
        now := max s.now d, stations := s.stations.map Station.imagePeriod,
        imageTimer := some (max s.now d + 1000 * s.timers.image) } := by
      unfold State.imagePeriod
      rw [hd]
      rfl
    refine ⟨s.imagePeriod, rfl, ?_⟩
    rw [hperiod]
    refine ⟨rfl, rfl, fun p => (stations_map_station s Station.imagePeriod p).trans ?_, by cases s; rfl⟩
    rfl

end Sys2Proof.KitchenRules
end

section
/-! PROOFS. The removal of a ticket by CANCEL TICKET, and the frames that the switch sends a station. O41, O51. -/

namespace Sys2Proof.KitchenRules

-- One theorem after another: as many checks at once take a thread each.
set_option Elab.async false

open Sys2Proof Sys2Proof.Machine Sys2Proof.Statements Sys2Proof.Invariants Sys2Proof.Frames Sys2Proof.AtSlot Sys2Proof.Office

/-! ### A ticket that is removed (R84, R85) -/

theorem offerWithdraw_offered (u : State) (x : Ticket) : WithdrawOffered u (u.offerWithdraw x) x := by
  have hsend : (u.isStation x.station = true) ↔ u.role x.station = .station := by simp [State.isStation]
  refine ⟨fun hever hrole hroom => ?_, fun hever hrole hroom => ?_, fun hno => ?_⟩
  · rw [State.offerWithdraw, hever, hsend.2 hrole, hroom]
    rfl
  · rw [State.offerWithdraw, hever, hsend.2 hrole, hroom]
    rfl
  · unfold State.offerWithdraw
    refine if_neg fun h => ?_
    obtain ⟨hever, hrole⟩ := Bool.and_eq_true_iff.1 h
    rcases hno with hno | hno
    · rw [hno] at hever; cases hever
    · exact hno (hsend.1 hrole)

/-- A WITHDRAW reaches a STATION port alone, and otherwise its station. -/
theorem offerWithdraw_frame (u : State) (x : Ticket) : ∃ ports stations,
    u.offerWithdraw x = { u with ports := ports, stations := stations } ∧
    ∀ q, u.role q ≠ .station → ports[q.val] = u.port q := by
  unfold State.offerWithdraw
  split
  · rename_i h
    obtain ⟨-, hrole⟩ := Bool.and_eq_true_iff.1 h
    have hrole : u.role x.station = .station := by simpa [State.isStation] using hrole
    split
    · refine ⟨(u.sendOwn x.station .withdraw (num2 x.number) .own).ports, u.stations, rfl, fun q hq => ?_⟩
      exact State.port_setPort_other u (fun e => hq (by rw [e]; exact hrole)) _
    · exact ⟨u.ports, (u.setStation x.station { u.station x.station with resync := 3 }).stations, rfl, fun _ _ => rfl⟩
  · exact ⟨u.ports, u.stations, rfl, fun _ _ => rfl⟩

/-- What becomes of a ticket's place when it is removed. -/
theorem removeTicket_removed (s : State) (x : Ticket) : ∃ stations overflow,
    let u : State := { s.setDir x.tab { s.dir x.tab with live := (s.dir x.tab).live - 1 } with stations := stations, overflow := overflow }
    s.removeTicket x = u.offerWithdraw x ∧ TicketRemoved s u x ∧
      (s.overflow = [] → overflow = [] ∧ stations = (s.setStation x.station { leftSent s (s.station x.station) x.number with
        queue := (s.station x.station).queue.filter (fun y => y.number ≠ x.number) }).stations) ∧
      ((∃ y ∈ s.overflow, y.number = x.number) → stations = s.stations ∧ overflow = s.overflow.filter (fun y => y.number ≠ x.number)) := by
  by_cases hin : ∃ y ∈ s.overflow, y.number = x.number
  · refine ⟨s.stations, s.overflow.filter (fun y => y.number ≠ x.number), ?_, ⟨fun _ => rfl, fun hno => ?_⟩, fun he => ?_, fun _ => ⟨rfl, rfl⟩⟩
    · unfold State.removeTicket
      rw [if_pos (inOverflow_iff.2 hin)]
      rfl
    · obtain ⟨y, hy, e⟩ := hin
      exact absurd e (hno y hy)
    · obtain ⟨y, hy, -⟩ := hin
      rw [he] at hy; cases hy
  · generalize hw : (s.setStation x.station { leftSent s (s.station x.station) x.number with
      queue := (s.station x.station).queue.filter (fun y => y.number ≠ x.number) }).setDir x.tab
        { s.dir x.tab with live := (s.dir x.tab).live - 1 } = w
    obtain ⟨stations, overflow, hpromote, hpromoted, hnone⟩ := promote_withPorts w w.ports
    have hshape : ({ w with stations := stations, overflow := overflow } : State) =
        { s.setDir x.tab { s.dir x.tab with live := (s.dir x.tab).live - 1 } with stations := stations, overflow := overflow } := by
      rw [← hw]; rfl
    have hlower : (s.removeFromQueue x.station x.number).lowerLive x.tab = w := by
      rw [removeFromQueue_eq, ← hw]; rfl
    refine ⟨stations, overflow, ?_, ⟨fun h => absurd h hin, fun _ => ?_⟩, fun he => ?_, fun h => absurd h hin⟩
    · unfold State.removeTicket
      rw [if_neg (mt inOverflow_iff.1 hin), hlower, ← hshape]
      exact congrArg (fun u : State => u.offerWithdraw x) hpromote
    · rw [hw, ← hshape]; exact hpromoted
    · have hover : w.overflow = [] := by rw [← hw]; exact he
      obtain ⟨h1, h2⟩ := hnone hover
      exact ⟨h2, by rw [h1, ← hw]; rfl⟩

/-- Settles O51. -/
theorem cancelTicketRemovesTicket : Obligations.CancelTicketRemovesTicket := by
  intro s tag n0 n1 ha hn
  have hexec := exec_of_admitted (k := .cancelTicket) (tag := tag) (body := [n0, n1]) rfl (by simp [maxBody]) (admitted_of_office ha rfl) nofun
  obtain ⟨-, hrole, -⟩ := ha
  have hread : readTicketNumber [n0, n1] = some (read2 n0 n1) := by simp [readTicketNumber, readNumber, hn]
  have hlive : (afterTaking s 0 .cancelTicket tag).liveTickets = s.liveTickets := rfl
  refine ⟨fun x hx => ?_, fun hdead => ?_⟩
  · intro fields removed
    have hnumber : x.number = read2 n0 n1 := by
      have hfound := List.find?_some hx
      exact of_decide_eq_true hfound
    have hrun : takeCancelTicket 0 [n0, n1] (afterTaking s 0 .cancelTicket tag) =
        ((afterTaking s 0 .cancelTicket tag).removeTicket x).reply 0 .ok fields := by
      simp only [takeCancelTicket, hread, hlive, hx]
      rw [← hnumber]
    obtain ⟨stations, overflow, hremove, hremoved, hempty, hoverflow⟩ := removeTicket_removed (afterTaking s 0 .cancelTicket tag) x
    generalize hu : ({ (afterTaking s 0 .cancelTicket tag).setDir x.tab
      { (afterTaking s 0 .cancelTicket tag).dir x.tab with live := ((afterTaking s 0 .cancelTicket tag).dir x.tab).live - 1 } with
        stations := stations, overflow := overflow } : State) = u at hremove hremoved
    obtain ⟨ports, stations', hoffer, hkept⟩ := offerWithdraw_frame u x
    have hport0 : (u.offerWithdraw x).port 0 = waitingPort (s.port 0) .cancelTicket tag := by
      have : u.role 0 ≠ .station := by
        have : u.role 0 = .uplink := by rw [← hu]; exact hrole
        rw [this]; nofun
      rw [hoffer]
      refine (hkept 0 this).trans ?_
      rw [← hu]
      exact afterTaking_port s 0 .cancelTicket tag
    have hreply : (u.offerWithdraw x).reply 0 .ok fields = (u.offerWithdraw x).setPort 0 (repliedPort (s.port 0) .cancelTicket tag .ok fields) :=
      reply_at_waiting hport0 _ _
    rw [hremove, hreply] at hrun
    refine ⟨_, u, u.offerWithdraw x, hexec.trans (congrArg _ hrun), hremoved, offerWithdraw_offered u x, ?_, State.port_setPort_self _ _ _,
      ?_, ?_, fun hquiet => ⟨?_, fun he => ?_, fun hin => ?_⟩⟩
    · rw [withReply, hport0]; rfl
    · rw [hoffer, ← hu]
      exact entryBecomes_of (u := s) rfl fun _ _ => rfl
    · rw [hoffer, ← hu]
      cases s; rfl
    all_goals
      have hsame : u.offerWithdraw x = u := (offerWithdraw_offered u x).none (hquiet.imp id fun h => by rw [← hu]; exact h)
      rw [hsame, ← hu]
    · intro q hq
      exact (State.port_setPort_other _ hq _).trans (afterTaking_port_other s hq _ _)
    · obtain ⟨rfl, rfl⟩ := hempty he
      exact ⟨stationBecomes_of (u := s) rfl rfl, rfl⟩
    · obtain ⟨rfl, rfl⟩ := hoverflow hin
      exact ⟨rfl, rfl⟩
  · have hnone : s.liveTickets.find? (fun u => u.number = read2 n0 n1) = none :=
      List.find?_eq_none.2 fun x hx hnum => by
        have := (isLiveNumber_iff s (read2 n0 n1)).2 (List.mem_map.2 ⟨x, hx, by simpa using hnum⟩)
        rw [hdead] at this; cases this
    have hrun : takeCancelTicket 0 [n0, n1] (afterTaking s 0 .cancelTicket tag) =
        (afterTaking s 0 .cancelTicket tag).refuse 0 .unknownTicket {} := by
      simp only [takeCancelTicket, hread, hlive, hnone]
    exact ⟨_, hexec, hrun.trans (refuse_afterTaking s 0 .cancelTicket tag _ _)⟩

end Sys2Proof.KitchenRules
end

section
/-! PROOFS. The frames that the switch sends on its own: TICKET, IMAGE, AVAILABILITY and NOTICE. O41, O42. -/

namespace Sys2Proof.KitchenRules

-- One theorem after another: as many checks at once take a thread each.
set_option Elab.async false

open Sys2Proof Sys2Proof.Machine Sys2Proof.Statements Sys2Proof.Invariants Sys2Proof.Frames Sys2Proof.AtSlot Sys2Proof.Office

/-! ### Frames to a station (R73, R97, R98) -/

theorem sendOwn_eq (s : State) (p : Port) (kind : Kind) (body : List Byte) (source : TxSource) :
    s.sendOwn p kind body source = s.setPort p (ownFramePort (s.port p) kind body source) := rfl

/-- What a TICKET frame leaves of its station. -/
theorem sendTicket_eq (s : State) (p : Port) (x : Ticket) : s.sendTicket p x =
    (s.setPort p (ownFramePort (s.port p) .ticket (ticketBody x) .own)).setStation p { s.station p with
      queue := (s.station p).queue.map (fun y =>
        if y.number = x.number then { y with state := .sent, everTransmitted := true } else y),
      sent := (s.station p).sent ++ [x.number],
      ackTimer := if (s.station p).sent = [] then some (s.now + 100 * s.timers.ack) else (s.station p).ackTimer } := by
  have hstation : (s.sendOwn p .ticket (ticketBody x) .own).station p = s.station p := rfl
  have hnow : (s.sendOwn p .ticket (ticketBody x) .own).ackDeadline = s.now + 100 * s.timers.ack := rfl
  unfold State.sendTicket
  rw [← sendOwn_eq]
  generalize s.sendOwn p .ticket (ticketBody x) .own = u at hstation hnow ⊢
  simp only [State.mapTicket, State.station_setStation_self, State.setStation_setStation, hstation]
  by_cases hsent : (s.station p).sent = []
  · have hdeadline : ∀ y, (u.setStation p y).ackDeadline = u.ackDeadline := fun _ => rfl
    simp only [hsent, if_true, State.restartAck, State.station_setStation_self, State.setStation_setStation, List.nil_append,
      List.cons_ne_nil, if_false, hdeadline, hnow]
  · simp only [hsent, if_false]

theorem maySendTicket_of {s : State} {p : Port} (hready : (s.station p).ready = true)
    (hwindow : (s.station p).sent.length < (s.station p).window) (hroom : (s.port p).hasRoom = true)
    (hurgent : (s.station p).resync ≠ 3) (htrickle : (s.station p).resync = 0 ∨ (s.port p).frames ≠ []) : s.maySendTicket p = true := by
  have hwait : (decide ((s.station p).resync ≠ 0) && (s.port p).frames.isEmpty) = false := by
    rcases htrickle with h | h
    · simp [h]
    · simp [h]
  simp only [State.maySendTicket, hready, hwindow, hroom, hwait, hurgent, ne_eq, not_false_eq_true, decide_true, Bool.not_false, Bool.and_self]

theorem sendImage_eq (s : State) (p : Port) (resync : Fin 4) : s.sendImage p resync =
    (s.setPort p (ownFramePort (s.port p) .image (imageBody (s.station p).queue) .own)).setStation p
      { s.station p with resync := resync } := rfl

/-- Settles O41. -/
theorem stationFramesAreSent : Obligations.StationFramesAreSent := by
  intro s p
  refine ⟨fun x hready hwindow hroom hurgent htrickle hnext => ?_, fun hready hresync hroom => ?_, fun hready hresync hempty => ?_⟩
  · have hexec : exec (.ticketSend p) s = .next (s.sendTicket p x) := by
      show execTicketSend p s = _
      unfold execTicketSend
      rw [if_pos (maySendTicket_of hready hwindow hroom hurgent htrickle), hnext]
    rw [sendTicket_eq] at hexec
    exact ⟨_, hexec, State.port_setPort_self _ _ _, fun q hq => State.port_setPort_other _ hq _, stationBecomes_of (u := s) rfl rfl,
      by cases s; rfl⟩
  · have hexec : exec (.urgentImage p) s = .next (s.sendImage p 0) := by
      show execUrgentImage p s = _
      unfold execUrgentImage
      rw [if_pos ⟨hready, hresync, hroom⟩]
    rw [sendImage_eq] at hexec
    exact ⟨_, hexec, State.port_setPort_self _ _ _, fun q hq => State.port_setPort_other _ hq _, stationBecomes_of (u := s) rfl rfl,
      by cases s; rfl⟩
  · have hexec : exec (.trickleImage p) s = .next (s.sendImage p ((s.station p).resync - 1)) := by
      show execTrickleImage p s = _
      unfold execTrickleImage
      have hlower : lowerResync (s.station p).resync = (s.station p).resync - 1 := by
        rcases hresync with h | h <;> rw [h] <;> rfl
      rw [if_pos ⟨hready, hresync, by rw [hempty]; rfl⟩, hlower]
    rw [sendImage_eq] at hexec
    exact ⟨_, hexec, State.port_setPort_self _ _ _, fun q hq => State.port_setPort_other _ hq _, stationBecomes_of (u := s) rfl rfl,
      by cases s; rfl⟩

/-! ### Frames to tills and to the office (R62, R63, R169) -/

theorem offerTo_eq (body : List Byte) (s : State) (p : Port) : State.offerTo body s p = s.setPort p
    (if (s.port p).hasRoom then ownFramePort (s.port p) .availability body .offer else (s.port p).markStale) := by
  unfold State.offerTo
  split <;> rfl

/-- A fold that changes one port after another by what it finds there. -/
theorem foldl_setPort {f : State → Port → State} {g : LanePort → LanePort} (hf : ∀ s p, f s p = s.setPort p (g (s.port p)))
    (l : List Port) (hl : l.Nodup) (s : State) : ∃ ports, l.foldl f s = { s with ports := ports } ∧
      ∀ p : Port, ports[p.val] = if p ∈ l then g (s.port p) else s.port p := by
  induction l generalizing s with
  | nil => exact ⟨s.ports, rfl, fun p => by simp [State.port]⟩
  | cons q l ih =>
    obtain ⟨hq, hl⟩ := List.nodup_cons.1 hl
    obtain ⟨ports, e, hports⟩ := ih hl (f s q)
    rw [hf] at e hports
    refine ⟨ports, by rw [List.foldl_cons, hf, e]; rfl, fun p => ?_⟩
    rw [hports p]
    by_cases hp : p = q
    · subst hp
      rw [if_neg hq, if_pos List.mem_cons_self, State.port_setPort_self]
    · rw [State.port_setPort_other _ hp]
      simp only [List.mem_cons, hp, false_or]

theorem tableFind_of_mem {α : Type} {k : Nat} {v : α} {l : List (Nat × α)} (hl : tableRising l = true) (h : (k, v) ∈ l) :
    tableFind k l = some v := by
  rw [tableRising_iff] at hl
  induction l with
  | nil => cases h
  | cons e rest ih =>
    obtain ⟨hfirst, hrest⟩ := List.pairwise_cons.1 hl
    rcases List.mem_cons.1 h with rfl | hmem
    · simp [tableFind]
    · have hne : e.1 ≠ k := (hfirst _ hmem).ne
      obtain ⟨j, w⟩ := e
      simp only [tableFind]
      rw [if_neg hne]
      exact ih hrest hmem

/-- The items that are LOW or OUT beyond a code (R63). -/
theorem shortItems_spec (s : State) (last : Nat) (hitems : tableRising s.items = true) :
    ((s.shortItems last).map AvailEntry.item).Pairwise (· < ·) ∧
    ∀ e, e ∈ s.shortItems last ↔ last < e.item ∧ availabilityOf (s.item e.item) ≠ .inStock ∧
      e.availability = availabilityOf (s.item e.item) ∧ e.stock = stockOf (s.item e.item) := by
  refine ⟨?_, fun e => ?_⟩
  · have := ((tableRising_iff s.items).1 hitems).filter (fun e => last < e.1 && decide (availabilityOf (some e.2) ≠ .inStock))
    rw [State.shortItems, List.map_map]
    exact List.pairwise_map.2 this
  · unfold State.shortItems
    rw [List.mem_map]
    constructor
    · rintro ⟨⟨code, item⟩, hmem, rfl⟩
      obtain ⟨hmem, hshort⟩ := List.mem_filter.1 hmem
      have hfind : s.item code = some item := tableFind_of_mem hitems hmem
      simp only [Bool.and_eq_true, decide_eq_true_eq] at hshort
      dsimp only
      rw [hfind]
      exact ⟨hshort.1, hshort.2, rfl, rfl⟩
    · rintro ⟨hlast, hshort, havail, hstock⟩
      cases hfind : s.item e.item with
      | none => rw [hfind] at hshort; exact absurd rfl hshort
      | some item =>
        rw [hfind] at hshort havail hstock
        refine ⟨(e.item, item), List.mem_filter.2 ⟨mem_of_tableFind hfind, by simp [hlast, hshort]⟩, ?_⟩
        cases e
        simp_all

theorem put_at_empty {x : LanePort} (h : x.frames = []) (f : TxFrame) : (x.put f).sending = some f ∧ (x.put f).queue = [] := by
  have hsending : x.sending = none := by
    cases hs : x.sending with
    | none => rfl
    | some g => simp [LanePort.frames, hs] at h
  have hqueue : x.queue = [] := by simpa [LanePort.frames, hsending] using h
  have hpick : pickFrame [f] = some f := by
    unfold pickFrame
    by_cases hk : f.kind = .reply <;> simp [hk]
  unfold LanePort.put LanePort.arbitrate
  rw [hqueue]
  dsimp only
  rw [hsending, List.nil_append, hpick]
  simp

/-- What an availability image's frame leaves of its port (R63). -/
theorem sendAvailabilityImage_eq {s : State} {p : Port} (hstale : (s.port p).stale = true) :
    let last := (s.port p).image.getD 0
    let short := s.shortItems last
    let body := num1 (1 + (if short.length ≤ 30 then 2 else 0) + (if last = 0 then 4 else 0))
      ++ num1 (short.take 30).length ++ availabilityBytes (short.take 30)
    s.sendAvailabilityImage p = s.setPort p { ownFramePort (s.port p) .availability body .own with
      stale := decide (30 < short.length),
      image := if short.length ≤ 30 then none else ((short.take 30).getLast?).map AvailEntry.item } := by
  intro last short body
  have hbody : num1 (availabilityFlags true (decide (short.length ≤ 30)) (decide (last = 0))) ++ num1 (short.take 30).length ++
      availabilityBytes (short.take 30) = body := by
    have hflags : availabilityFlags true (decide (short.length ≤ 30)) (decide (last = 0)) =
        1 + (if short.length ≤ 30 then 2 else 0) + (if last = 0 then 4 else 0) := by
      simp only [availabilityFlags, bit, if_true, decide_eq_true_eq]
    rw [hflags]
  unfold State.sendAvailabilityImage
  dsimp only
  rw [hbody, sendOwn_eq, State.port_setPort_self, State.setPort_setPort]
  by_cases hlast : short.length ≤ 30
  · have hnot : decide (30 < short.length) = false := by simpa using hlast
    rw [if_pos hlast, if_pos hlast, hnot]
  · have hmore : decide (30 < short.length) = true := by simpa using hlast
    rw [if_neg hlast, if_neg hlast, hmore]
    have : (ownFramePort (s.port p) .availability body .own).stale = true := by
      simpa [ownFramePort] using hstale
    rw [← this]

/-- Settles O42. -/
theorem switchFramesAreSent : Obligations.SwitchFramesAreSent := by
  unfold Obligations.SwitchFramesAreSent
  refine ⟨fun s hlist hfree => ?_, fun s p htill hstale hempty => ?_, shortItems_spec, fun s n rest hn hroom => ?_⟩
  · obtain ⟨ports, e, hports⟩ := foldl_setPort
      (g := fun x => if x.hasRoom then ownFramePort x .availability
        (num1 0 ++ num1 (s.availList.take 8).length ++ availabilityBytes (s.availList.take 8)) .offer else x.markStale)
      (offerTo_eq (num1 0 ++ num1 (s.availList.take 8).length ++ availabilityBytes (s.availList.take 8))) s.tillPorts
      ((List.nodup_finRange 24).filter _) s
    have hrun : s.offerAvailability = { s with ports := ports, availList := s.availList.drop 8 } := by
      unfold State.offerAvailability
      rw [if_neg (by simp [hlist, hfree])]
      exact congrArg (fun u : State => { u with availList := s.availList.drop 8 }) e
    have htills : ∀ p : Port, p ∈ s.tillPorts ↔ (s.role p).isTill = true := fun p => by
      simp [State.tillPorts, allPorts]
    refine ⟨{ s with ports := ports, availList := s.availList.drop 8 }, congrArg _ hrun, rfl, fun p htill hroom => ?_,
      fun p htill hfull => ?_, fun p hno => ?_, by cases s; rfl⟩
    · refine (hports p).trans ?_
      rw [if_pos ((htills p).2 htill), if_pos hroom]
      rfl
    · refine (hports p).trans ?_
      rw [if_pos ((htills p).2 htill), hfull, if_neg Bool.false_ne_true]
      rfl
    · refine (hports p).trans (if_neg fun h => ?_)
      rw [(htills p).1 h] at hno; cases hno
  · have hexec : exec (.availabilityImageFrame p) s = .next (s.sendAvailabilityImage p) := by
      show execAvailabilityImageFrame p s = _
      unfold execAvailabilityImageFrame
      rw [if_pos (by simp [State.imageFrameDue, htill, hstale, hempty])]
    rw [sendAvailabilityImage_eq hstale] at hexec
    refine ⟨_, hexec, ⟨State.port_setPort_self _ _ _, ?_, ?_⟩, fun q hq => State.port_setPort_other _ hq _, by cases s; rfl⟩
    · rw [State.port_setPort_self]; exact (put_at_empty hempty _).1
    · rw [State.port_setPort_self]; exact (put_at_empty hempty _).2
  · have hrun : s.sendNotice = { s.sendOwn 0 .notice (noticeBody s.dropped n) .own with notices := rest, dropped := false } := by
      unfold State.sendNotice
      rw [hn]
      dsimp only
      rw [if_pos hroom]
    refine ⟨{ s.sendOwn 0 .notice (noticeBody s.dropped n) .own with notices := rest, dropped := false }, congrArg _ hrun, rfl, rfl,
      State.port_setPort_self _ _ _, fun q hq => State.port_setPort_other _ hq _, ?_⟩
    cases s; rfl

end Sys2Proof.KitchenRules
end

section
/-! PROOFS. Changes of availability as they are latched, and the requests that set the item table (R46, R49 to R51, R61). O45, O48. -/

namespace Sys2Proof.Availability

-- One theorem after another: as many checks at once take a thread each.
set_option Elab.async false

open Sys2Proof Sys2Proof.Machine Sys2Proof.Statements Sys2Proof.Invariants Sys2Proof.Frames Sys2Proof.AtSlot Sys2Proof.Office
open Sys2Proof.KitchenRules

/-! ### One change (R61) -/

/-- A change that the full list cannot take: it is alone in the emptied list, and every TILL port is stale. -/
theorem latchChange_full {s : State} {e : AvailEntry} (hnew : ∀ x ∈ s.availList, x.item ≠ e.item) (hfull : 32 ≤ s.availList.length) :
    ∃ ports, s.latchChange e = { s with ports := ports, availList := [e] }.raise (.stock e.item e.availability e.stock) ∧
      ∀ p : Port, ports[p.val] = if (s.role p).isTill then (s.port p).markStale else s.port p := by
  obtain ⟨ports, hfold, hports⟩ := foldl_setPort (f := State.markStale) (g := LanePort.markStale) (fun _ _ => rfl) s.tillPorts
    ((List.nodup_finRange 24).filter _) s
  refine ⟨ports, ?_, fun p => ?_⟩
  · unfold State.latchChange
    rw [if_neg (by simpa using hnew), if_neg (Nat.not_lt.2 hfull), hfold]
  · rw [hports p]
    simp [State.tillPorts, allPorts]

theorem latchChange_listed {s : State} {e : AvailEntry} (h : ∃ x ∈ s.availList, x.item = e.item) :
    s.latchChange e = { s with availList := s.availList.map (fun x => if x.item = e.item then e else x) } := by
  unfold State.latchChange
  rw [if_pos (by simpa using h)]

theorem latchChange_joins {s : State} {e : AvailEntry} (hnew : ∀ x ∈ s.availList, x.item ≠ e.item) (hroom : s.availList.length < 32) :
    s.latchChange e = { s with availList := s.availList ++ [e] }.raise (.stock e.item e.availability e.stock) := by
  unfold State.latchChange
  rw [if_neg (by simpa using hnew), if_pos hroom]

/-- A latched change touches the ports, the availability list and the notices alone. -/
theorem latchChange_frame (s : State) (e : AvailEntry) : ∃ ports availList notices dropped,
    s.latchChange e = { s with ports := ports, availList := availList, notices := notices, dropped := dropped } := by
  by_cases hlisted : ∃ x ∈ s.availList, x.item = e.item
  · exact ⟨s.ports, _, s.notices, s.dropped, latchChange_listed hlisted⟩
  · push Not at hlisted
    by_cases hroom : s.availList.length < 32
    · rw [latchChange_joins hlisted hroom, State.raise_frame]
      exact ⟨s.ports, _, _, _, rfl⟩
    · obtain ⟨ports, h, -⟩ := latchChange_full hlisted (Nat.not_lt.1 hroom)
      rw [h, State.raise_frame]
      exact ⟨ports, _, _, _, rfl⟩

theorem foldl_latchChange_frame (changes : List AvailEntry) (s : State) : ∃ ports availList notices dropped,
    changes.foldl State.latchChange s = { s with ports := ports, availList := availList, notices := notices, dropped := dropped } := by
  induction changes generalizing s with
  | nil => exact ⟨s.ports, s.availList, s.notices, s.dropped, rfl⟩
  | cons e rest ih =>
    obtain ⟨ports, availList, notices, dropped, h⟩ := latchChange_frame s e
    obtain ⟨ports', availList', notices', dropped', h'⟩ := ih (s.latchChange e)
    refine ⟨ports', availList', notices', dropped', ?_⟩
    rw [List.foldl_cons, h', h]

/-- A port that is no till's is not made stale. -/
theorem latchChange_port {s : State} {p : Port} (h : (s.role p).isTill = false) (e : AvailEntry) : (s.latchChange e).port p = s.port p := by
  by_cases hlisted : ∃ x ∈ s.availList, x.item = e.item
  · rw [latchChange_listed hlisted]; rfl
  · push Not at hlisted
    by_cases hroom : s.availList.length < 32
    · rw [latchChange_joins hlisted hroom, State.raise_frame]; rfl
    · obtain ⟨ports, h', hports⟩ := latchChange_full hlisted (Nat.not_lt.1 hroom)
      rw [h', State.raise_frame]
      exact (hports p).trans (by rw [h]; rfl)

theorem foldl_latchChange_port (changes : List AvailEntry) {s : State} {p : Port} (h : (s.role p).isTill = false) :
    (changes.foldl State.latchChange s).port p = s.port p := by
  induction changes generalizing s with
  | nil => rfl
  | cons e rest ih =>
    obtain ⟨ports, availList, notices, dropped, hframe⟩ := latchChange_frame s e
    rw [List.foldl_cons, ih (by rw [hframe]; exact h), latchChange_port h]

/-! ### The changes of an event (R51) -/

theorem mem_insertCode (c d : Nat) (l : List Nat) : d ∈ insertCode c l ↔ d = c ∨ d ∈ l := by
  induction l with
  | nil => simp [insertCode]
  | cons e rest ih =>
    unfold insertCode
    split
    · simp
    · split
      · rename_i heq; subst heq; simp
      · simp only [List.mem_cons, ih]; tauto

theorem mem_ascendingCodes (d : Nat) (codes : List Nat) : d ∈ ascendingCodes codes ↔ d ∈ codes := by
  unfold ascendingCodes
  induction codes with
  | nil => simp
  | cons c rest ih => rw [List.foldr_cons, mem_insertCode, ih, List.mem_cons]

theorem insertCode_rising (c : Nat) {l : List Nat} (h : l.Pairwise (· < ·)) : (insertCode c l).Pairwise (· < ·) := by
  induction l with
  | nil => exact List.pairwise_singleton _ _
  | cons e rest ih =>
    obtain ⟨hfirst, hrest⟩ := List.pairwise_cons.1 h
    unfold insertCode
    split
    · rename_i hlt
      refine List.pairwise_cons.2 ⟨fun d hd => ?_, h⟩
      rcases List.mem_cons.1 hd with rfl | hd
      · exact hlt
      · exact hlt.trans (hfirst d hd)
    · split
      · exact h
      · rename_i hlt hne
        refine List.pairwise_cons.2 ⟨fun d hd => ?_, ih hrest⟩
        rcases (mem_insertCode c d rest).1 hd with rfl | hd
        · omega
        · exact hfirst d hd

theorem ascendingCodes_rising (codes : List Nat) : (ascendingCodes codes).Pairwise (· < ·) := by
  unfold ascendingCodes
  induction codes with
  | nil => exact List.Pairwise.nil
  | cons c rest ih => exact insertCode_rising c ih

/-- The change of one item's availability between two states, if there is one. -/
def changeOf (before after : State) (c : Nat) : Option AvailEntry :=
  if availabilityOf (before.item c) = availabilityOf (after.item c) then none
  else some { item := c, availability := availabilityOf (after.item c), stock := stockOf (after.item c) }

/-- The changes among these items, in ascending code. -/
def changesBetween (before after : State) (codes : List Nat) : List AvailEntry := (ascendingCodes codes).filterMap (changeOf before after)

theorem changeOf_item {before after : State} {c : Nat} {e : AvailEntry} (h : changeOf before after c = some e) : e.item = c := by
  unfold changeOf at h
  split at h <;> cases h
  rfl

theorem filterMap_rising {f : Nat → Option AvailEntry} (hf : ∀ c e, f c = some e → e.item = c) {l : List Nat} (h : l.Pairwise (· < ·)) :
    ((l.filterMap f).map AvailEntry.item).Pairwise (· < ·) := by
  rw [List.pairwise_map, List.pairwise_filterMap]
  exact h.imp fun {c d} hlt e he e' he' => by rw [hf c e he, hf d e' he']; exact hlt

theorem changesBetween_changes {s t before after : State} (hbefore : before.items = s.items) (hafter : after.items = t.items)
    (codes : List Nat) : ChangesOf s t codes (changesBetween before after codes) := by
  have hs : ∀ c, before.item c = s.item c := fun c => by simp only [State.item, hbefore]
  have ht : ∀ c, after.item c = t.item c := fun c => by simp only [State.item, hafter]
  refine ⟨filterMap_rising (fun _ _ h => changeOf_item h) (ascendingCodes_rising codes), fun e => ?_⟩
  unfold changesBetween
  rw [List.mem_filterMap]
  constructor
  · rintro ⟨c, hc, h⟩
    obtain rfl := changeOf_item h
    unfold changeOf at h
    rw [hs, ht] at h
    split at h
    · cases h
    · rename_i hne
      have h' := Option.some.inj h
      exact ⟨(mem_ascendingCodes _ _).1 hc, hne, by rw [← h'], by rw [← h']⟩
  · rintro ⟨hc, hne, havail, hstock⟩
    refine ⟨e.item, (mem_ascendingCodes _ _).2 hc, ?_⟩
    unfold changeOf
    rw [hs, ht, if_neg hne, ← havail, ← hstock]

/-- Latching item by item is latching the changes, as a latched change leaves the items alone. -/
theorem latchItems_eq (u before : State) (codes : List Nat) :
    u.latchItems before codes = (changesBetween before u codes).foldl State.latchChange u := by
  have hfold : ∀ (l : List Nat) (v : State), v.items = u.items →
      l.foldl (fun acc c => acc.latchItem before c) v = (l.filterMap (changeOf before u)).foldl State.latchChange v := by
    intro l
    induction l with
    | nil => intro v _; rfl
    | cons c rest ih =>
      intro v hv
      have hitem : v.item c = u.item c := by simp only [State.item, hv]
      rw [List.foldl_cons, List.filterMap_cons]
      unfold State.latchItem changeOf
      rw [hitem]
      split
      · exact ih v hv
      · obtain ⟨ports, availList, notices, dropped, hframe⟩ := latchChange_frame v
          { item := c, availability := availabilityOf (u.item c), stock := stockOf (u.item c) }
        exact ih _ (by rw [hframe]; exact hv)
  exact hfold (ascendingCodes codes) u rfl

/-! ### Latching and the reply of the event's request -/

/-- For latching `u` is `v` after a request was taken at a port: nothing that latching reads or writes differs but for that port's slot. -/
structure TakenFrom (u v : State) (p : Port) (k : Kind) (tag : Byte) : Prop where
  availList : u.availList = v.availList
  notices   : u.notices = v.notices
  dropped   : u.dropped = v.dropped
  mask      : u.mask = v.mask
  roles     : u.portTable = v.portTable
  own       : u.port p = waitingPort (v.port p) k tag
  others    : ∀ q, q ≠ p → u.port q = v.port q

theorem TakenFrom.raise {u v : State} {p : Port} {k : Kind} {tag : Byte} (h : TakenFrom u v p k tag) (n : Notice) :
    TakenFrom (u.raise n) (v.raise n) p k tag := by
  obtain ⟨hnotices, hdropped⟩ := raise_congr n h.mask h.notices h.dropped
  have hport : ∀ (w : State) q, (w.raise n).port q = w.port q := fun w q => by rw [State.raise_frame]; rfl
  refine ⟨?_, hnotices, hdropped, ?_, ?_, ?_, fun q hq => ?_⟩
  · rw [State.raise_availList, State.raise_availList]; exact h.availList
  · rw [State.raise_mask, State.raise_mask]; exact h.mask
  · rw [State.raise_portTable, State.raise_portTable]; exact h.roles
  · rw [hport, hport]; exact h.own
  · rw [hport, hport]; exact h.others q hq

theorem TakenFrom.latchChange {u v : State} {p : Port} {k : Kind} {tag : Byte} (h : TakenFrom u v p k tag) (e : AvailEntry) :
    TakenFrom (u.latchChange e) (v.latchChange e) p k tag := by
  have hrole : ∀ q, u.role q = v.role q := fun q => by simp only [State.role, h.roles]
  by_cases hlisted : ∃ x ∈ v.availList, x.item = e.item
  · rw [latchChange_listed hlisted, latchChange_listed (by rw [h.availList]; exact hlisted)]
    exact ⟨congrArg (List.map _) h.availList, h.notices, h.dropped, h.mask, h.roles, h.own, h.others⟩
  · push Not at hlisted
    have hlisted' : ∀ x ∈ u.availList, x.item ≠ e.item := by rw [h.availList]; exact hlisted
    by_cases hroom : v.availList.length < 32
    · rw [latchChange_joins hlisted hroom, latchChange_joins hlisted' (by rw [h.availList]; exact hroom)]
      exact TakenFrom.raise (u := { u with availList := u.availList ++ [e] }) (v := { v with availList := v.availList ++ [e] })
        ⟨congrArg (· ++ [e]) h.availList, h.notices, h.dropped, h.mask, h.roles, h.own, h.others⟩ _
    · obtain ⟨ports, hv, hports⟩ := latchChange_full hlisted (Nat.not_lt.1 hroom)
      obtain ⟨ports', hu, hports'⟩ := latchChange_full hlisted' (by rw [h.availList]; exact Nat.not_lt.1 hroom)
      rw [hu, hv]
      refine TakenFrom.raise (u := { u with ports := ports', availList := [e] }) (v := { v with ports := ports, availList := [e] })
        ⟨rfl, h.notices, h.dropped, h.mask, h.roles, ?_, fun q hq => ?_⟩ _
      · refine (hports' p).trans (Eq.trans ?_ (congrArg (waitingPort · k tag) (hports p)).symm)
        rw [hrole, h.own]
        split <;> rfl
      · refine (hports' q).trans (Eq.trans ?_ (hports q).symm)
        rw [hrole, h.others q hq]

theorem TakenFrom.foldl_latchChange {u v : State} {p : Port} {k : Kind} {tag : Byte} (h : TakenFrom u v p k tag) (changes : List AvailEntry) :
    TakenFrom (changes.foldl State.latchChange u) (changes.foldl State.latchChange v) p k tag := by
  induction changes generalizing u v with
  | nil => exact h
  | cons e rest ih => exact ih (h.latchChange e)

/-- What latching leaves, and the reply that ends the request later on, where nothing else has changed ports, notices and availability since. -/
theorem latch_then_reply {s u v before : State} {p : Port} {k : Kind} {tag : Byte} (h : TakenFrom u v p k tag)
    (hbefore : before.items = s.items) (codes : List Nat) :
    ∃ ports availList notices dropped,
      u.latchItems before codes = { u with ports := ports, availList := availList, notices := notices, dropped := dropped } ∧
      ∀ (w : State) (status : Status) (fields : List Byte), w.ports = ports → w.availList = availList → w.notices = notices →
        w.dropped = dropped → w.items = u.items →
        ∃ ports', w.reply p status fields = { w with ports := ports' } ∧
          LatchedAndReplied s v { w with ports := ports' } codes p k tag status fields := by
  have hafter := h.foldl_latchChange (changesBetween before u codes)
  obtain ⟨ports, availList, notices, dropped, hframe⟩ := foldl_latchChange_frame (changesBetween before u codes) u
  rw [hframe] at hafter
  refine ⟨ports, availList, notices, dropped, (latchItems_eq u before codes).trans hframe,
    fun w status fields hports havail hnotices hdropped hitems => ?_⟩
  have hport : ∀ q, w.port q = State.port { u with ports := ports, availList := availList, notices := notices, dropped := dropped } q :=
    fun q => by simp only [State.port, hports]
  rw [reply_at_waiting (s := (changesBetween before u codes).foldl State.latchChange v) ((hport p).trans hafter.own)]
  exact ⟨_, rfl, changesBetween before u codes, changesBetween_changes hbefore hitems.symm codes, havail.trans hafter.availList,
    hnotices.trans hafter.notices, hdropped.trans hafter.dropped, State.port_setPort_self _ _ _,
    fun q hq => (State.port_setPort_other _ hq _).trans ((hport q).trans (hafter.others q hq))⟩

/-- At a port that is no till's, the latch is not seen. -/
theorem LatchedAndReplied.repliedAt {s v t : State} {codes : List Nat} {p : Port} {k : Kind} {tag : Byte} {status : Status}
    {fields : List Byte} (h : LatchedAndReplied s v t codes p k tag status fields) (hrole : (v.role p).isTill = false) :
    RepliedAt v t p k tag status fields := by
  obtain ⟨changes, -, -, -, -, hport, -⟩ := h
  rw [foldl_latchChange_port changes hrole] at hport
  exact hport

/-! ### Requests that set the item table (R46, R49, R50) -/

theorem setItems_other {entries : List (Nat × Option Item)} {c : Nat} (h : ∀ e ∈ entries, e.1 ≠ c) (s : State) :
    (s.loadItems entries).item c = s.item c := by
  unfold State.loadItems
  induction entries generalizing s with
  | nil => rfl
  | cons e rest ih =>
    rw [List.foldl_cons, ih fun x hx => h x (List.mem_cons_of_mem _ hx)]
    exact State.item_setItem_other _ (Ne.symm (h e List.mem_cons_self)) _

theorem setItems_last {front rest : List (Nat × Option Item)} {c : Nat} {x : Option Item} (h : ∀ e ∈ rest, e.1 ≠ c) (s : State) :
    (s.loadItems (front ++ (c, x) :: rest)).item c = x := by
  have hrest := setItems_other h ((s.loadItems front).setItem c x)
  unfold State.loadItems at hrest ⊢
  rw [List.foldl_append, List.foldl_cons, hrest]
  exact State.item_setItem_self _ _ _

theorem loadItems_congr {s u : State} (h : u.items = s.items) (entries : List (Nat × Option Item)) :
    (u.loadItems entries).items = (s.loadItems entries).items := by
  unfold State.loadItems
  induction entries generalizing s u with
  | nil => exact h
  | cons e rest ih => exact ih (by unfold State.setItem; simp only [h])

/-- An office request that has set the item table, latches the changes and replies: the uplink's port is no till's. -/
theorem exists_setsItems {s : State} {k : Kind} {tag : Byte} {c : Instr} {items : List (Nat × Item)} {codes : List Nat} {fields : List Byte}
    (hrole : s.role 0 = .uplink)
    (hrun : exec c s =
      .next (({ afterTaking s 0 k tag with items := items }.latchItems (afterTaking s 0 k tag) codes).reply 0 .ok fields)) :
    ∃ t, exec c s = .next t ∧ t.items = items ∧ RepliedAt s t 0 k tag .ok fields ∧ LatchedAndReplied s s t codes 0 k tag .ok fields ∧
      { t with ports := s.ports, items := s.items, availList := s.availList, notices := s.notices, dropped := s.dropped } = s := by
  have htaken : TakenFrom { afterTaking s 0 k tag with items := items } s 0 k tag :=
    ⟨rfl, rfl, rfl, rfl, rfl, afterTaking_port s 0 k tag, fun _ hq => afterTaking_port_other s hq k tag⟩
  obtain ⟨ports, availList, notices, dropped, hlatch, hreply⟩ := latch_then_reply htaken (s := s) (before := afterTaking s 0 k tag) rfl codes
  rw [hlatch] at hrun
  obtain ⟨ports', hrepl, hlatched⟩ := hreply { afterTaking s 0 k tag with
    items := items, ports := ports, availList := availList, notices := notices, dropped := dropped } .ok fields rfl rfl rfl rfl rfl
  exact ⟨_, hrun.trans (congrArg Host.Outcome.next hrepl), rfl, LatchedAndReplied.repliedAt hlatched (by rw [hrole]; rfl), hlatched, rfl⟩

theorem item_of_setItem_self {s t : State} {c : Nat} {x : Option Item} (h : t.items = (s.setItem c x).items) : t.item c = x := by
  rw [← State.item_setItem_self s c x]
  unfold State.item
  rw [h]

theorem item_of_setItem_other {s t : State} {c d : Nat} {x : Option Item} (h : t.items = (s.setItem c x).items) (hd : d ≠ c) :
    t.item d = s.item d := by
  rw [← State.item_setItem_other s hd x]
  unfold State.item
  rw [h]

/-- What ADJUST STOCK adds to stock and level, neither of which leaves its range (R50). -/
theorem appliedDelta_spec {k : Tracking} (h : k.balanced) (d : Int) :
    (0 ≤ d → appliedDelta d k = min d (9999 - (k.level : Int))) ∧ (d < 0 → appliedDelta d k = max d (-(k.stock : Int))) ∧
      ((adjustTracking d k).stock : Int) = k.stock + appliedDelta d k ∧ ((adjustTracking d k).level : Int) = k.level + appliedDelta d k := by
  obtain ⟨hsum, hlevel⟩ := h
  unfold adjustTracking appliedDelta
  refine ⟨fun hd => if_pos hd, fun hd => if_neg (by omega), ?_, ?_⟩ <;> dsimp only <;> split <;> omega

/-- Settles O45. -/
theorem loadItemsReplacesEntries : Obligations.LoadItemsReplacesEntries := by
  intro s tag body entries hb ha hsave hread
  have hexec := exec_of_admitted (k := .loadItems) (tag := tag) rfl hb (admitted_of_office ha rfl) nofun
  obtain ⟨-, hrole, -⟩ := ha
  have hitems : ((afterTaking s 0 .loadItems tag).loadItems entries).items = (s.loadItems entries).items :=
    loadItems_congr (u := afterTaking s 0 .loadItems tag) (s := s) rfl entries
  have hrun : ownerOf .loadItems 0 body (afterTaking s 0 .loadItems tag) =
      ({ afterTaking s 0 .loadItems tag with items := (s.loadItems entries).items }.latchItems (afterTaking s 0 .loadItems tag)
        (entries.map Prod.fst)).reply 0 .ok (num1 entries.length) := by
    rw [← hitems, State.loadItems, ← loadItems_items]
    change State.unlessSaving _ _ _ = _
    rw [unlessSaving_idle (by exact hsave), hread]
    rfl
  obtain ⟨t, hnext, ht, hreply, hlatched, hframe⟩ := exists_setsItems hrole (hexec.trans (congrArg Host.Outcome.next hrun))
  have hitem : ∀ c, t.item c = (s.loadItems entries).item c := fun c => by simp only [State.item, ht]
  refine ⟨t, hnext, fun c hc => (hitem c).trans (setItems_other hc s), ?_, hreply, hlatched, hframe⟩
  rintro front c x rest rfl hrest
  exact (hitem c).trans (setItems_last hrest s)

/-- Settles O48. -/
theorem stockRequestsSetTheFigures : Obligations.StockRequestsSetTheFigures := by
  refine ⟨fun s e => ⟨latchChange_listed, latchChange_joins, fun hnew hfull => ?_⟩, fun s tag c0 c1 v0 v1 x ha hsave hcode hitem => ⟨fun hv => ?_, fun k hk hbal hlow hhigh => ?_⟩⟩
  · obtain ⟨ports, h, hports⟩ := latchChange_full hnew hfull
    rw [h]
    have hraise := raise_congr (u := { s with ports := ports, availList := [e] }) (s := s) (.stock e.item e.availability e.stock) rfl rfl rfl
    refine ⟨State.raise_availList _ _, hraise.1, hraise.2, fun p => ?_, ?_⟩
    · rw [State.raise_frame]; exact hports p
    · rw [State.raise_frame]
  · have hrun : exec (.setStock 0 tag [c0, c1, v0, v1]) s = .next (({ afterTaking s 0 .setStock tag with
        items := (s.setItem (read2 c0 c1) (some { x with tracking := some (setTracking (read2 v0 v1) x.tracking) })).items }.latchItems
          (afterTaking s 0 .setStock tag) [read2 c0 c1]).reply 0 .ok
            (stockBytes (some { x with tracking := some (setTracking (read2 v0 v1) x.tracking) }) true)) := by
      rw [exec_of_admitted (k := .setStock) rfl (Nat.le_of_ble_eq_true rfl) (admitted_of_office ha rfl) nofun]
      change Host.Outcome.next (State.unlessSaving _ _ _) = _
      have hread : readSetStock [c0, c1, v0, v1] = some (read2 c0 c1, read2 v0 v1) := by
        unfold readSetStock
        simp [hcode, hv]
      rw [unlessSaving_idle (by exact hsave), hread]
      dsimp only
      rw [show (afterTaking s 0 .setStock tag).item (read2 c0 c1) = some x from hitem]
      rfl
    obtain ⟨t, hnext, ht, hreply, hlatched, hframe⟩ := exists_setsItems ha.2.1 hrun
    exact ⟨t, _, hnext, rfl, item_of_setItem_self ht, fun d hd => item_of_setItem_other ht hd, hreply, hlatched, hframe⟩
  · have hrun : exec (.adjustStock 0 tag [c0, c1, v0, v1]) s = .next (({ afterTaking s 0 .adjustStock tag with
        items := (s.setItem (read2 c0 c1) (some { x with tracking := some (adjustTracking (readSigned2 v0 v1) k) })).items }.latchItems
          (afterTaking s 0 .adjustStock tag) [read2 c0 c1]).reply 0 .ok (signed2 (appliedDelta (readSigned2 v0 v1) k) ++
            stockBytes (some { x with tracking := some (adjustTracking (readSigned2 v0 v1) k) }) false)) := by
      rw [exec_of_admitted (k := .adjustStock) rfl (Nat.le_of_ble_eq_true rfl) (admitted_of_office ha rfl) nofun]
      change Host.Outcome.next (State.unlessSaving _ _ _) = _
      have hread : readAdjustStock [c0, c1, v0, v1] = some (read2 c0 c1, readSigned2 v0 v1) := by
        unfold readAdjustStock
        simp [hcode, hlow, hhigh]
      rw [unlessSaving_idle (by exact hsave), hread]
      dsimp only
      rw [show (afterTaking s 0 .adjustStock tag).item (read2 c0 c1) = some x from hitem]
      dsimp only
      rw [hk]
      rfl
    obtain ⟨t, hnext, ht, hreply, hlatched, hframe⟩ := exists_setsItems ha.2.1 hrun
    obtain ⟨hup, hdown, hstock, hlevel⟩ := appliedDelta_spec hbal (readSigned2 v0 v1)
    exact ⟨t, appliedDelta (readSigned2 v0 v1) k, adjustTracking (readSigned2 v0 v1) k, hnext, hup, hdown, hstock, hlevel, rfl, rfl,
      item_of_setItem_self ht, fun d hd => item_of_setItem_other ht hd, hreply, hlatched, hframe⟩

end Sys2Proof.Availability
end

section
/-! PROOFS. The load of station entries, with the SENT tickets beyond a new window (R74, R166). O46. -/

namespace Sys2Proof.Windows

-- One theorem after another: as many checks at once take a thread each.
set_option Elab.async false

open Sys2Proof Sys2Proof.Machine Sys2Proof.Statements Sys2Proof.Invariants Sys2Proof.Frames Sys2Proof.Office Sys2Proof.AtSlot

/-! ### The lane ports are not looked at -/

theorem unsendNewest_withPorts (s : State) (ports : Vector LanePort 24) (q : Port) :
    { s with ports := ports }.unsendNewest q = { s.unsendNewest q with ports := ports } := by
  unfold State.unsendNewest
  have hstation : State.station { s with ports := ports } q = s.station q := rfl
  rw [hstation]
  cases (s.station q).sent.getLast? with
  | none => rfl
  | some n => dsimp only; rw [leaveSent_eq, leaveSent_eq]; rfl

theorem loadStation_withPorts (s : State) (ports : Vector LanePort 24) (e : Port × StationEntry) :
    { s with ports := ports }.loadStation e = { s.loadStation e with ports := ports } := by
  have hfold : ∀ (l : List Nat) (u : State), l.foldl (fun acc _ => acc.unsendNewest e.1) { u with ports := ports } =
      { l.foldl (fun acc _ => acc.unsendNewest e.1) u with ports := ports } := by
    intro l
    induction l with
    | nil => intro u; rfl
    | cons _ rest ih => intro u; rw [List.foldl_cons, unsendNewest_withPorts, ih]; rfl
  exact hfold _ (s.setStation e.1 (loadedStation (s.station e.1) e.2))

theorem loadStations_withPorts (entries : List (Port × StationEntry)) (s : State) (ports : Vector LanePort 24) :
    entries.foldl State.loadStation { s with ports := ports } = { entries.foldl State.loadStation s with ports := ports } := by
  induction entries generalizing s with
  | nil => rfl
  | cons e rest ih => rw [List.foldl_cons, loadStation_withPorts, ih]; rfl

/-! ### SENT tickets beyond the window (R74) -/

/-- A station whose sent list keeps only its oldest `w` tickets, the others being QUEUED again. -/
def sentUpTo (w : Nat) (x : Station) : Station :=
  { x with
    sent := x.sent.take w,
    queue := x.queue.map (fun y => if y.number ∈ x.sent.drop w then { y with state := .queued } else y) }

theorem sentUpTo_length (x : Station) : sentUpTo x.sent.length x = x := by
  simp [sentUpTo]

theorem erase_getLast {l : List Nat} {w : Nat} (hnodup : l.Nodup) (h : w < l.length) : (l.take (w + 1)).erase l[w] = l.take w := by
  have hsplit := List.take_append_getElem h
  have hnot : l[w] ∉ l.take w := by
    have := (List.take_sublist (w + 1) l).nodup hnodup
    rw [← hsplit, List.nodup_append] at this
    exact fun hin => this.2.2 _ hin _ (List.mem_singleton_self _) rfl
  rw [← hsplit, List.erase_append_right _ hnot]
  simp

/-- The newest SENT ticket returns to QUEUED; the head is not the newest, and the ack timer runs on. -/
theorem unsendNewest_sentUpTo {s : State} {q : Port} {w : Nat} (hnodup : (s.station q).sent.Nodup) (hpos : 0 < w)
    (h : w < (s.station q).sent.length) :
    (s.setStation q (sentUpTo (w + 1) (s.station q))).unsendNewest q = s.setStation q (sentUpTo w (s.station q)) := by
  have hlast : (((s.station q).sent).take (w + 1)).getLast? = some (s.station q).sent[w] := by
    rw [← List.take_append_getElem h, List.getLast?_concat]
  have hhead : (((s.station q).sent).take (w + 1)).head? ≠ some (s.station q).sent[w] := by
    have hzero := (hnodup.getElem_inj_iff (hi := hpos.trans h) (hj := h)).not.2 hpos.ne
    rw [List.head?_take]
    simp only [Nat.add_eq_zero_iff, one_ne_zero, and_false, if_false]
    rw [List.head?_eq_getElem?, List.getElem?_eq_getElem (hpos.trans h)]
    simpa using hzero
  unfold State.unsendNewest
  simp only [State.station_setStation_self, sentUpTo, hlast]
  rw [leaveSent_eq, State.mapTicket, State.station_setStation_self, State.station_setStation_self, State.setStation_setStation,
    State.setStation_setStation]
  refine congrArg (s.setStation q) ?_
  simp only [leftSent, hhead, if_false, erase_getLast hnodup h, List.map_map]
  have hqueue : ∀ y : Ticket, (if (if y.number ∈ (s.station q).sent.drop (w + 1) then { y with state := .queued } else y).number =
      (s.station q).sent[w] then { (if y.number ∈ (s.station q).sent.drop (w + 1) then { y with state := .queued } else y) with state := .queued }
      else (if y.number ∈ (s.station q).sent.drop (w + 1) then { y with state := .queued } else y)) =
      if y.number ∈ (s.station q).sent.drop w then { y with state := .queued } else y := by
    intro y
    have hmem : y.number ∈ (s.station q).sent.drop w ↔ y.number = (s.station q).sent[w] ∨ y.number ∈ (s.station q).sent.drop (w + 1) := by
      rw [List.drop_eq_getElem_cons h, List.mem_cons]
    by_cases hy : y.number ∈ (s.station q).sent.drop (w + 1)
    · simp [hy, hmem]
    · simp [hy, hmem]
  congr 1
  exact List.map_congr_left fun y _ => hqueue y

theorem unsend_sentUpTo {s : State} {q : Port} (hnodup : (s.station q).sent.Nodup) (k : Nat) {w : Nat} (hpos : 0 < w)
    (h : w + k ≤ (s.station q).sent.length) (l : List Nat) (hl : l.length = k) :
    l.foldl (fun acc _ => acc.unsendNewest q) (s.setStation q (sentUpTo (w + k) (s.station q))) =
      s.setStation q (sentUpTo w (s.station q)) := by
  induction l generalizing k with
  | nil => subst hl; rfl
  | cons _ rest ih =>
    subst hl
    rw [List.foldl_cons, List.length_cons, ← Nat.add_assoc, unsendNewest_sentUpTo hnodup (by omega) (by simp only [List.length_cons] at h; omega)]
    exact ih _ (by simp only [List.length_cons] at h; omega) rfl

/-- A window of 1 or more that takes effect keeps the oldest SENT tickets, as many as it is. -/
theorem fitWindow_sentUpTo {s : State} {q : Port} (hnodup : (s.station q).sent.Nodup) (hpos : 0 < (s.station q).window) :
    s.fitWindow q = s.setStation q (sentUpTo (s.station q).window (s.station q)) := by
  unfold State.fitWindow
  by_cases h : (s.station q).sent.length ≤ (s.station q).window
  · rw [Nat.sub_eq_zero_of_le h]
    have : sentUpTo (s.station q).window (s.station q) = s.station q := by
      simp [sentUpTo, List.take_of_length_le h, List.drop_eq_nil_of_le h]
    rw [this]
    exact (setStation_station s q).symm
  · have hstart := unsend_sentUpTo hnodup ((s.station q).sent.length - (s.station q).window) hpos (by omega)
      (List.range ((s.station q).sent.length - (s.station q).window)) (by simp)
    rw [show (s.station q).window + ((s.station q).sent.length - (s.station q).window) = (s.station q).sent.length by omega,
      sentUpTo_length, setStation_station] at hstart
    exact hstart

/-- Settles O46. -/
theorem loadStationsReplacesEntry : Obligations.LoadStationsReplacesEntry := by
  intro s tag body entries hb ha hsave hread
  have hexec := exec_of_admitted (k := .loadStations) (tag := tag) rfl hb (admitted_of_office ha rfl) nofun
  have hrun : ownerOf .loadStations 0 body (afterTaking s 0 .loadStations tag) =
      ({ s with ports := (afterTaking s 0 .loadStations tag).ports, stations := (entries.foldl State.loadStation s).stations } : State).reply 0
        .ok (num1 entries.length) := by
    have hload : entries.foldl State.loadStation (afterTaking s 0 .loadStations tag) =
        { s with ports := (afterTaking s 0 .loadStations tag).ports, stations := (entries.foldl State.loadStation s).stations } := by
      refine (loadStations_withPorts entries s (afterTaking s 0 .loadStations tag).ports).trans ?_
      rw [loadStations_stations]
    change takeLoadStations 0 body _ = _
    have hidle : (afterTaking s 0 .loadStations tag).save.isSome = false := by
      rw [show (afterTaking s 0 .loadStations tag).save = none from hsave]; rfl
    simp only [takeLoadStations, hidle, hread]
    rw [← hload]
    rfl
  refine exists_answered (hexec.trans (congrArg _ hrun)) rfl fun hreply hothers => ⟨rfl, hreply, hothers, rfl, fun q hq => ?_, ?_⟩
  · exact loadStations_other entries s hq
  · rintro q e rfl
    obtain ⟨hlow, hhigh⟩ := readLoadStations_windows hread _ (List.mem_singleton_self _)
    have hsent := fitWindow_sent (s.setStation q (loadedStation (s.station q) e)) q
    rw [State.station_setStation_self] at hsent
    obtain ⟨queue, sent, ack, hspec⟩ := loadStation_spec s q e
    obtain ⟨halternate, hbalance, hwindow⟩ := loadStations_last [] q e [] s nofun
    refine ⟨hlow, hhigh, fun p hp => loadStation_other s e hp, hsent.1, halternate, hbalance, hwindow, fun hnodup => ?_⟩
    have hfit := fitWindow_sentUpTo (s := s.setStation q (loadedStation (s.station q) e)) (q := q)
      (by rw [State.station_setStation_self]; exact hnodup) (by rw [State.station_setStation_self]; exact hlow)
    change (s.loadStation (q, e)).station q = _
    rw [loadStation_eq, hfit, State.station_setStation_self, State.station_setStation_self]
    rfl

end Sys2Proof.Windows
end

section
/-! PROOFS. What the order engine plans: the checks, the tickets and their places (R54, R55, R69, R70). O16. -/

namespace Sys2Proof.OrderRules

-- One theorem after another: as many checks at once take a thread each.
set_option Elab.async false

open Sys2Proof Sys2Proof.Machine Sys2Proof.Statements Sys2Proof.Invariants Sys2Proof.Frames Sys2Proof.Office Sys2Proof.AtSlot

/-! ### Stations in the order of first appearance -/

theorem mem_firstAppearances {p : Port} {l : List Port} : p ∈ firstAppearances l ↔ p ∈ l := by
  induction l with
  | nil => exact Iff.rfl
  | cons q rest ih =>
    rw [firstAppearances, List.mem_cons, List.mem_cons, List.mem_filter, ih, decide_eq_true_eq]
    tauto

theorem firstAppearances_nodup (l : List Port) : (firstAppearances l).Nodup := by
  induction l with
  | nil => exact List.nodup_nil
  | cons q rest ih =>
    rw [firstAppearances, List.nodup_cons]
    exact ⟨by simp, ih.filter _⟩

theorem firstAppearances_order (l : List Port) : (firstAppearances l).Pairwise (fun p q => l.idxOf p ≤ l.idxOf q) := by
  induction l with
  | nil => exact List.Pairwise.nil
  | cons x rest ih =>
    rw [firstAppearances, List.pairwise_cons]
    refine ⟨fun q _ => by simp, (ih.filter _).imp_of_mem fun {p q} hp hq hle => ?_⟩
    have hx : ∀ {y}, y ∈ (firstAppearances rest).filter (fun y => y ≠ x) → x ≠ y := fun h =>
      (of_decide_eq_true (List.mem_filter.1 h).2).symm
    rw [List.idxOf_cons_ne _ (hx hp), List.idxOf_cons_ne _ (hx hq)]
    exact Nat.succ_le_succ hle

/-! ### Tickets of up to 8 lines (R55) -/

theorem inEights_eq {α : Type} (fuel : Nat) (l : List α) : inEights fuel l = inPieces 8 fuel l := by
  induction fuel generalizing l with
  | zero => rfl
  | succ fuel ih =>
    cases l with
    | nil => rfl
    | cons x l => rw [inEights, inPieces, ih]

/-- Of lists that carry a port each, those of one port. -/
theorem filter_flatMap_fst {α : Type} (f : Port → List α) (p : Port) {ps : List Port} (h : ps.Nodup) :
    (ps.flatMap (fun q => (f q).map (fun x => (q, x)))).filter (fun x => x.1 = p) =
      if p ∈ ps then (f p).map (fun x => (p, x)) else [] := by
  induction ps with
  | nil => rfl
  | cons q rest ih =>
    obtain ⟨hq, hrest⟩ := List.nodup_cons.1 h
    rw [List.flatMap_cons, List.filter_append, ih hrest]
    by_cases hp : q = p
    · subst hp
      rw [if_neg hq, if_pos List.mem_cons_self, List.append_nil, List.filter_eq_self]
      simp
    · have hnone : ((f q).map (fun x => (q, x))).filter (fun x => x.1 = p) = [] := by
        rw [List.filter_eq_nil_iff]; simp [hp]
      rw [hnone, List.nil_append]
      simp [Ne.symm hp]

/-- The pieces of a station's passed lines. -/
def piecesOf (s : State) (passed : List PassedLine) (p : Port) : List (List PassedLine) :=
  inPieces 8 (passed.filter (fun l => s.lineStation l = some p)).length (passed.filter (fun l => s.lineStation l = some p))

theorem formTickets_eq (s : State) (passed : List PassedLine) :
    s.formTickets passed = (firstAppearances (passed.filterMap s.lineStation)).flatMap (fun p =>
      (piecesOf s passed p).map (fun ls => (p, ls))) := by
  simp only [State.formTickets, inEights_eq]
  rfl

theorem piecesOf_spec (s : State) (passed : List PassedLine) (p : Port) :
    (piecesOf s passed p).flatten = passed.filter (fun l => s.lineStation l = some p) ∧
    (∀ g ∈ piecesOf s passed p, 1 ≤ g.length ∧ g.length ≤ 8) ∧ ∀ g ∈ (piecesOf s passed p).dropLast, g.length = 8 :=
  inPieces_spec (by decide) _ _ le_rfl

theorem formTickets_of_station (s : State) (passed : List PassedLine) (p : Port) :
    (s.formTickets passed).filter (fun x => x.1 = p) = (piecesOf s passed p).map (fun ls => (p, ls)) := by
  rw [formTickets_eq, filter_flatMap_fst (piecesOf s passed) p (firstAppearances_nodup _)]
  split
  · rfl
  · rename_i hp
    have hnone : passed.filter (fun l => s.lineStation l = some p) = [] := by
      rw [List.filter_eq_nil_iff]
      intro l hl hstation
      exact hp (mem_firstAppearances.2 (List.mem_filterMap.2 ⟨l, hl, of_decide_eq_true hstation⟩))
    rw [piecesOf, hnone]
    rfl

theorem mem_formTickets {s : State} {passed : List PassedLine} {x : Port × List PassedLine} (h : x ∈ s.formTickets passed) :
    1 ≤ x.2.length ∧ x.2.length ≤ 8 ∧ ∀ l ∈ x.2, s.lineStation l = some x.1 := by
  rw [formTickets_eq, List.mem_flatMap] at h
  obtain ⟨p, -, hx⟩ := h
  obtain ⟨ls, hls, rfl⟩ := List.mem_map.1 hx
  obtain ⟨hflat, hsize, -⟩ := piecesOf_spec s passed p
  refine ⟨(hsize ls hls).1, (hsize ls hls).2, fun l hl => ?_⟩
  have hmem : l ∈ passed.filter (fun l => s.lineStation l = some p) := hflat ▸ List.mem_flatten.2 ⟨ls, hls, hl⟩
  exact of_decide_eq_true (List.mem_filter.1 hmem).2

theorem formTickets_order (s : State) (passed : List PassedLine) : ((s.formTickets passed).map Prod.fst).Pairwise (fun p q =>
    (passed.filterMap s.lineStation).idxOf p ≤ (passed.filterMap s.lineStation).idxOf q) := by
  rw [formTickets_eq, List.map_flatMap, List.pairwise_flatMap]
  simp only [List.map_map, Function.comp_def, List.map_const']
  refine ⟨fun p _ => List.pairwise_replicate.2 (.inr le_rfl), (firstAppearances_order _).imp fun {p q} hle x hx y hy => ?_⟩
  rw [List.eq_of_mem_replicate hx, List.eq_of_mem_replicate hy]
  exact hle

/-! ### Places (R69, R70) -/

theorem judgeTickets_lines (s : State) (done : List Place) (formed : List (Port × List PassedLine)) :
    (s.judgeTickets done formed).map JudgedTicket.lines = formed.map Prod.snd := by
  induction formed generalizing done with
  | nil => rfl
  | cons x rest ih => exact congrArg _ (ih _)

/-- Each ticket is judged with the places of those before it taken. -/
theorem judgeTickets_place (s : State) (done : List Place) (formed : List (Port × List PassedLine)) (k : Nat) {x : JudgedTicket}
    {y : Port × List PassedLine} (hx : (s.judgeTickets done formed)[k]? = some x) (hy : formed[k]? = some y) :
    x.place = s.findPlace (done ++ ((s.judgeTickets done formed).take k).filterMap JudgedTicket.place) y.1 := by
  induction formed generalizing done k with
  | nil => cases hy
  | cons z rest ih =>
    cases k with
    | zero =>
      cases hx; cases hy
      simp
    | succ k =>
      have h := ih (done ++ (s.findPlace done z.1).toList) k hx hy
      rw [h, List.append_assoc]
      congr 2
      rw [State.judgeTickets, List.take_succ_cons, List.filterMap_cons]
      cases s.findPlace done z.1 <;> rfl

theorem failsKitchen_iff (tickets : List JudgedTicket) (l : PassedLine) : failsKitchen tickets l = false ↔
    ∀ x ∈ tickets, (∃ m ∈ x.lines, m.index = l.index) → x.place ≠ none := by
  rw [← Bool.not_eq_true]
  simp only [failsKitchen, List.any_eq_true, Bool.and_eq_true, Option.isNone_iff_eq_none, decide_eq_true_eq]
  push Not
  exact ⟨fun h x hx ⟨m, hm, hl⟩ hp => h x hx hp m hm hl, fun h x hx hp m hm hl => h x hx ⟨m, hm, hl⟩ hp⟩

/-- R70: a place in the queue of the target, or else in the overflow list. -/
theorem findPlace_eq (s : State) (done : List Place) (p : Port) : s.findPlace done p =
    if s.queueLength done (s.target done p) < 24 then some { target := s.target done p, inQueue := true }
    else if s.overflow.length + (done.filter (fun d => !d.inQueue)).length < 48 then
      some { target := s.target done p, inQueue := false } else none := rfl

/-- R69's table where there is a READY alternate. -/
theorem target_of_alternate {s : State} {p a : Port} (h : s.readyAlternate p = some a) (done : List Place) :
    s.target done p = if (s.station p).ready then
      if (s.station p).balance && s.queueLength done a < s.queueLength done p then a else p else a := by
  unfold State.target
  rw [h]

/-- Settles O16. -/
theorem acceptedLinesKeepTheLimits : Obligations.AcceptedLinesKeepTheLimits := by
  refine ⟨fun s g existing lines => ?_, fun s g existing lines => ?_, fun s done p => ?_⟩
  · intro plan hsome
    have hfits := planOrder_fits s g existing lines
    exact ⟨hfits.room hsome, hfits.total hsome, hfits.stock⟩
  · intro plan passed formed
    refine ⟨fun x hx => mem_formTickets hx, fun p => ?_, formTickets_order s passed, judgeTickets_lines s [] formed,
      fun k x y hx hy => ?_, fun l => ?_⟩
    · obtain ⟨hflat, -, hfull⟩ := piecesOf_spec s passed p
      rw [formTickets_of_station, List.map_map, ← List.map_dropLast]
      refine ⟨by simpa [Function.comp_def] using hflat, fun x hx => ?_⟩
      obtain ⟨ls, hls, rfl⟩ := List.mem_map.1 hx
      exact hfull ls hls
    · exact judgeTickets_place s [] formed k hx hy
    · have haccepted : plan.accepted = passed.filter (fun l => !failsKitchen plan.tickets l) := rfl
      rw [haccepted, List.mem_filter, Bool.not_eq_true', failsKitchen_iff]
  · refine ⟨fun a => readyAlternate_some, fun hnone => ?_, fun a hready => ⟨fun hdark => ?_, fun hup hown => ?_, fun hup hbalance => ?_⟩, rfl,
      fun hroom => ?_, fun hfull => ?_⟩
    · unfold State.target; rw [hnone]
    · rw [target_of_alternate hready, hdark]; rfl
    · rw [target_of_alternate hready, hup, hown]; rfl
    · rw [target_of_alternate hready, hup, hbalance]; simp
    · rw [findPlace_eq, if_pos hroom]
    · rw [findPlace_eq, if_neg (Nat.not_lt.2 hfull)]

end Sys2Proof.OrderRules
end

section
/-! PROOFS. What an order's commit leaves: the tickets created, the stock sold, the lines appended (R56, R67, R68). O17, O18. -/

namespace Sys2Proof.OrderRules

-- One theorem after another: as many checks at once take a thread each.
set_option Elab.async false

open Sys2Proof Sys2Proof.Machine Sys2Proof.Statements Sys2Proof.Invariants Sys2Proof.Frames Sys2Proof.Office Sys2Proof.AtSlot
open Sys2Proof.Availability

/-! ### What an order does not look at -/

/-- A state in which a request has reached its slot: ports, cache and directory may differ from `s`, and nothing else. -/
def apart (s : State) (ports : Vector LanePort 24) (recency : List SlotId) (slots : Vector CacheSlot 8)
    (directory : List (Nat × DirEntry)) (freeList : List Nat) : State :=
  { s with ports := ports, recency := recency, slots := slots, directory := directory, freeList := freeList }

section
variable (s : State) (ports : Vector LanePort 24) (recency : List SlotId) (slots : Vector CacheSlot 8)
  (directory : List (Nat × DirEntry)) (freeList : List Nat)

theorem checkLines_apart (g : Group) (existing : List TabLine) (passed : List PassedLine) (index : Nat) (lines : List OrderLine) :
    (apart s ports recency slots directory freeList).checkLines g existing passed index lines =
      s.checkLines g existing passed index lines := by
  induction lines generalizing passed index with
  | nil => rfl
  | cons l rest ih =>
    rw [State.checkLines, State.checkLines, ih]
    rfl

theorem judgeTickets_apart (done : List Place) (formed : List (Port × List PassedLine)) :
    (apart s ports recency slots directory freeList).judgeTickets done formed = s.judgeTickets done formed := by
  induction formed generalizing done with
  | nil => rfl
  | cons x rest ih =>
    rw [State.judgeTickets, State.judgeTickets, ih]
    rfl

/-- The plan of an order depends on neither ports nor cache nor directory. -/
theorem planOrder_apart (g : Group) (existing : List TabLine) (lines : List OrderLine) :
    (apart s ports recency slots directory freeList).planOrder g existing lines = s.planOrder g existing lines := by
  unfold State.planOrder
  rw [checkLines_apart]
  have hformed : ∀ passed, (apart s ports recency slots directory freeList).formTickets passed = s.formTickets passed := fun _ => rfl
  simp only [hformed, judgeTickets_apart]

theorem afterTickets_apart (tickets : List (Place × Ticket)) :
    afterTickets (apart s ports recency slots directory freeList) tickets =
      apart (afterTickets s tickets) ports recency slots directory freeList := by
  unfold afterTickets
  induction tickets generalizing s with
  | nil => rfl
  | cons x rest ih =>
    rw [List.foldl_cons, List.foldl_cons, ← ih]
    congr 1
    unfold State.placeTicket
    split <;> rfl

end

theorem afterTickets_frame (tickets : List (Place × Ticket)) (s : State) : ∃ stations overflow counter,
    afterTickets s tickets = { s with stations := stations, overflow := overflow, ticketCounter := counter } := by
  unfold afterTickets
  induction tickets generalizing s with
  | nil => exact ⟨_, _, _, rfl⟩
  | cons x rest ih =>
    obtain ⟨stations, overflow, counter, h⟩ := ih { s.placeTicket x.1 x.2 with ticketCounter := nextNumber x.2.number }
    refine ⟨stations, overflow, counter, ?_⟩
    rw [List.foldl_cons, h, placeTicket_frame]

/-! ### The tickets (R67, R68) -/

/-- Judged tickets that have a place. -/
def placedOf (tickets : List JudgedTicket) : List (Place × List PassedLine) := tickets.filterMap (fun x => x.place.map (fun y => (y, x.lines)))

/-- The new tickets with their numbers, at their places. -/
def newTickets (tab : Nat) (origin : Port) (rush : Bool) (number : Nat → Nat) (numbers : List Nat) (placed : List (Place × List PassedLine)) :
    List (Place × Ticket) :=
  List.zipWith (fun n x => (x.1, newTicket tab origin rush number n x)) numbers placed

theorem createTickets_created (tab : Nat) (origin : Port) (rush : Bool) (number : Nat → Nat) (l : List JudgedTicket) (s : State) :
    ∃ numbers, numbers.length = (placedOf l).length ∧
      (∀ k n, numbers[k]? = some n → n = (afterTickets s ((newTickets tab origin rush number numbers (placedOf l)).take k)).freshNumber) ∧
      createTickets tab origin rush number l s =
        (afterTickets s (newTickets tab origin rush number numbers (placedOf l)), numbers.zip ((placedOf l).map Prod.snd)) := by
  induction l generalizing s with
  | nil => exact ⟨[], rfl, nofun, rfl⟩
  | cons x rest ih =>
    cases hp : x.place with
    | none =>
      have hplaced : placedOf (x :: rest) = placedOf rest := by simp [placedOf, hp]
      have hcreate : createTickets tab origin rush number (x :: rest) s = createTickets tab origin rush number rest s := by
        rw [createTickets, hp]
      rw [hplaced, hcreate]
      exact ih s
    | some place =>
      have hplaced : placedOf (x :: rest) = (place, x.lines) :: placedOf rest := by simp [placedOf, hp]
      obtain ⟨numbers, hlength, hfresh, hcreated⟩ := ih
        { s.placeTicket place (newTicket tab origin rush number s.freshNumber (place, x.lines)) with
          ticketCounter := nextNumber s.freshNumber }
      rw [hplaced]
      refine ⟨s.freshNumber :: numbers, congrArg Nat.succ hlength, fun k n hk => ?_, ?_⟩
      · cases k with
        | zero => exact (Option.some.inj hk).symm
        | succ k => exact hfresh k n hk
      · rw [createTickets, hp]
        exact congrArg (fun r : State × List (Nat × List PassedLine) => (r.1, (s.freshNumber, x.lines) :: r.2)) hcreated

theorem placedOf_length (plan : OrderPlan) : (placedOf plan.tickets).length = Statements.placed plan := by
  unfold placedOf Statements.placed
  induction plan.tickets with
  | nil => rfl
  | cons x rest ih => cases h : x.place <;> simp [h, ih]

/-! ### The lines (R12, R56) -/

/-- The accepted lines are numbered on from the highest, in request order. -/
theorem lineNumbers_accepted (highest : Nat) {accepted : List PassedLine} (h : (accepted.map PassedLine.index).Pairwise (· < ·)) :
    accepted.map (fun l => lineNumberOf highest accepted l.index) = List.range' (highest + 1) accepted.length := by
  refine List.ext_getElem (by simp) fun k hk _ => ?_
  have hk' : k < accepted.length := by simpa using hk
  have hfirst : accepted.findIdx (fun l => l.index = accepted[k].index) = k := by
    rw [List.findIdx_eq hk']
    refine ⟨decide_eq_true rfl, fun j hj => decide_eq_false fun heq => ?_⟩
    have := List.pairwise_iff_getElem.1 h j k (by simpa using hj.trans hk') (by simpa using hk') hj
    simp only [List.getElem_map] at this
    omega
  simp [lineNumberOf, hfirst]

/-! ### The commit -/

theorem sell_frame (accepted : List PassedLine) (s : State) : ∃ items,
    accepted.foldl (fun acc l => acc.mapTracking l.item (sellStock l.quantity)) s = { s with items := items } := by
  induction accepted generalizing s with
  | nil => exact ⟨_, rfl⟩
  | cons l rest ih =>
    obtain ⟨items, h⟩ := ih (s.mapTracking l.item (sellStock l.quantity))
    refine ⟨items, ?_⟩
    rw [List.foldl_cons, h]
    unfold State.mapTracking
    split <;> rfl

/-- The commit of an order: its tickets created, its stock sold, the live count raised, and the changes of availability latched. -/
theorem commitOrder_spec (before u : State) (p : Port) (rush : Bool) (r : TabRecord) (plan : OrderPlan) :
    ∃ numbers items,
      let number := lineNumberOf (highestLine r.lines) plan.accepted
      let new := newTickets r.tab p rush number numbers (placedTickets plan)
      let created := numbers.zip ((placedTickets plan).map Prod.snd)
      let lines := r.lines ++ plan.accepted.map (newLine number created)
      numbers.length = (placedTickets plan).length ∧
      (∀ k n, numbers[k]? = some n → n = (afterTickets u (new.take k)).freshNumber) ∧
      commitOrder before u p rush r plan =
        { state := ({ (afterTickets u new).raiseLive r.tab (Statements.placed plan) with items := items }).latchItems before
            (plan.accepted.map PassedLine.item),
          record := { r with lines := lines, totals := u.lineTotals r.group lines }, created := created } ∧
      ∀ w : State, w.items = items → ∀ c, w.item c =
        (u.item c).map (fun x => { x with tracking := x.tracking.map (sellStock (Statements.takenOf plan.accepted c)) }) := by
  obtain ⟨numbers, hlength, hfresh, hcreated⟩ :=
    createTickets_created r.tab p rush (lineNumberOf (highestLine r.lines) plan.accepted) plan.tickets u
  generalize hnew : newTickets r.tab p rush (lineNumberOf (highestLine r.lines) plan.accepted) numbers (placedOf plan.tickets) = new
    at hfresh hcreated
  obtain ⟨items, hsell⟩ := sell_frame plan.accepted (afterTickets u new)
  refine ⟨numbers, items, hlength, ?_, ?_, fun w hw c => ?_⟩
  · rw [← hnew] at hfresh; exact hfresh
  · have hcount : (numbers.zip ((placedOf plan.tickets).map Prod.snd)).length = Statements.placed plan := by
      rw [List.length_zip, List.length_map, hlength, min_self, placedOf_length]
    unfold commitOrder
    simp only [hcreated, hsell, hcount]
    change Commit.mk (State.latchItems _ _ _) _ _ = Commit.mk (State.latchItems { (afterTickets u (newTickets r.tab p rush
      (lineNumberOf (highestLine r.lines) plan.accepted) numbers (placedOf plan.tickets))).raiseLive r.tab (Statements.placed plan)
      with items := items } _ _) _ _
    rw [hnew]
    rfl
  · have hitem := item_sell plan.accepted (afterTickets u new) c
    obtain ⟨stations, overflow, counter, hframe⟩ := afterTickets_frame new u
    rw [hsell, hframe] at hitem
    unfold State.item at hitem ⊢
    rw [hw]
    exact hitem

/-- `t` is the state after the commit of an order and its reply, against `s` before it and `u` in which it executes: all but the slot. -/
structure Committed (s u t : State) (p : Port) (tag : Byte) (rush : Bool) (r : TabRecord) (plan : OrderPlan) (numbers : List Nat)
    (status : Status) (fields : List Byte) : Prop where
  recency   : t.recency = u.recency
  freeList  : t.freeList = u.freeList
  directory : t.directory = (u.setDir r.tab { u.dir r.tab with live := (u.dir r.tab).live + Statements.placed plan }).directory
  tickets   : TicketsCreated s t r.tab p rush (lineNumberOf (highestLine r.lines) plan.accepted) plan numbers
  items     : ∀ c, t.item c = (s.item c).map (fun x => { x with tracking := x.tracking.map (sellStock (Statements.takenOf plan.accepted c)) })
  latched   : LatchedAndReplied s s t (plan.accepted.map PassedLine.item) p .order tag status fields
  rest      : { t with
    ports := s.ports, recency := s.recency, slots := s.slots, directory := s.directory, freeList := s.freeList, items := s.items,
    availList := s.availList, notices := s.notices, dropped := s.dropped, stations := s.stations, overflow := s.overflow,
    ticketCounter := s.ticketCounter } = s

/-- The commit of an order that executes in `u`, whatever its slot then holds, and its reply. -/
theorem commitOrder_committed {s u before : State} {p : Port} {tag : Byte} (rush : Bool) (r : TabRecord) (plan : OrderPlan)
    (hu : u = apart s u.ports u.recency u.slots u.directory u.freeList) (hbefore : before.items = s.items)
    (hown : u.port p = waitingPort (s.port p) .order tag) (hothers : ∀ q, q ≠ p → u.port q = s.port q) :
    ∃ numbers,
      let created := numbers.zip ((placedTickets plan).map Prod.snd)
      let lines := r.lines ++ plan.accepted.map (newLine (lineNumberOf (highestLine r.lines) plan.accepted) created)
      (commitOrder before u p rush r plan).created = created ∧
      (commitOrder before u p rush r plan).record = { r with lines := lines, totals := s.lineTotals r.group lines } ∧
      (commitOrder before u p rush r plan).state.slots = u.slots ∧
      ∀ slots status fields, ∃ t, State.reply { (commitOrder before u p rush r plan).state with slots := slots } p status fields = t ∧
        t.slots = slots ∧ Committed s u t p tag rush r plan numbers status fields := by
  obtain ⟨numbers, items, hlength, hfresh, hcommit, hitems⟩ := commitOrder_spec before u p rush r plan
  rw [hcommit]
  generalize hnew : newTickets r.tab p rush (lineNumberOf (highestLine r.lines) plan.accepted) numbers (placedTickets plan) = new
    at hfresh
  have hlines : ∀ lines, u.lineTotals r.group lines = s.lineTotals r.group lines := fun lines => by rw [hu]; rfl
  have hafter : ∀ l, afterTickets u l = apart (afterTickets s l) u.ports u.recency u.slots u.directory u.freeList := fun l => by
    rw [← afterTickets_apart, ← hu]
  obtain ⟨stations, overflow, counter, hframe⟩ := afterTickets_frame new s
  have hcreated : ∀ t : State, t.stations = stations → t.overflow = overflow → t.ticketCounter = counter →
      TicketsCreated s t r.tab p rush (lineNumberOf (highestLine r.lines) plan.accepted) plan numbers := by
    intro t hstations hoverflow hcounter
    change newTickets _ _ _ _ _ _ = new at hnew
    unfold TicketsCreated
    simp only [newTickets] at hnew
    simp only [hnew, hframe]
    refine ⟨hlength, fun k n hk => ?_, hstations, hoverflow, hcounter⟩
    rw [hfresh k n hk, hafter]
    rfl
  have hitem : ∀ w : State, w.items = items → ∀ c, w.item c = (s.item c).map (fun x =>
      { x with tracking := x.tracking.map (sellStock (Statements.takenOf plan.accepted c)) }) := fun w hw c => by
    rw [hitems w hw c, hu]; rfl
  have hcounted : ({ (afterTickets u new).raiseLive r.tab (Statements.placed plan) with items := items } : State) =
      { s with
        ports := u.ports, recency := u.recency, slots := u.slots, freeList := u.freeList, items := items, stations := stations,
        overflow := overflow, ticketCounter := counter,
        directory := (u.setDir r.tab { u.dir r.tab with live := (u.dir r.tab).live + Statements.placed plan }).directory } := by
    rw [hafter, hframe]
    rfl
  simp only [hcounted, hlines]
  generalize hdir : (u.setDir r.tab { u.dir r.tab with live := (u.dir r.tab).live + Statements.placed plan }).directory = directory
  have htaken : TakenFrom { s with
      ports := u.ports, recency := u.recency, slots := u.slots, freeList := u.freeList, items := items, stations := stations,
      overflow := overflow, ticketCounter := counter, directory := directory } s p .order tag :=
    ⟨rfl, rfl, rfl, rfl, rfl, hown, hothers⟩
  obtain ⟨ports, availList, notices, dropped, hlatch, hreply⟩ :=
    latch_then_reply htaken hbefore (plan.accepted.map PassedLine.item)
  rw [hlatch]
  refine ⟨numbers, rfl, rfl, rfl, fun slots status fields => ?_⟩
  obtain ⟨ports', hrepl, hlatched⟩ := hreply { s with
    ports := ports, recency := u.recency, slots := slots, freeList := u.freeList, items := items, stations := stations,
    overflow := overflow, ticketCounter := counter, directory := directory, availList := availList, notices := notices,
    dropped := dropped } status fields rfl rfl rfl rfl rfl
  exact ⟨_, hrepl, rfl, rfl, rfl, hdir.symm, hcreated _ rfl rfl rfl, hitem _ rfl, hlatched, rfl⟩

/-! ### ORDER on an OPEN tab (R53 to R57) -/

theorem newLines_contents (number : Nat → Nat) (created : List (Nat × List PassedLine)) (accepted : List PassedLine) :
    (accepted.map (newLine number created)).map Statements.lineContents = accepted.map Statements.acceptedContents := by
  rw [List.map_map]
  rfl

theorem newLines_tickets (number : Nat → Nat) (created : List (Nat × List PassedLine)) (accepted : List PassedLine) :
    (accepted.map (newLine number created)).map (fun l => l.ticket) = accepted.map (fun l => ticketOfLine created l.index) := by
  rw [List.map_map]
  rfl

theorem newLines_numbers {s : State} {g : Group} {existing : List TabLine} {lines : List OrderLine}
    (highest : Nat) (created : List (Nat × List PassedLine)) :
    ((s.planOrder g existing lines).accepted.map (newLine (lineNumberOf highest (s.planOrder g existing lines).accepted) created)).map
      (fun l => l.number) = List.range' (highest + 1) (s.planOrder g existing lines).accepted.length := by
  rw [List.map_map]
  exact lineNumbers_accepted highest (planOrder_index s g existing lines)

theorem tabRequestOf_order {body : List Byte} {tab : Nat} {rush : Bool} {lines : List OrderLine}
    (h : readOrder body = some (tab, rush, lines)) (htab : tab ≠ 0) : tabRequestOf .order body = some (tab, .order tab rush lines) := by
  unfold tabRequestOf
  simp [h, htab]

theorem performOrder_passed {s : State} {i : SlotId} {p : Port} {tab : Nat} {rush : Bool} {lines : List OrderLine} {r : TabRecord}
    (hjudge : s.judgeExecution .orderOrVoid p tab = none) (hrec : (s.slot i).record = some r) :
    performOrder i p tab rush lines s =
      if (s.planOrder r.group r.lines lines).accepted = [] then
        s.reply p .partly (orderReply tab (highestLine r.lines) (s.planOrder r.group r.lines lines) [] r.totals.total)
      else
        ((commitOrder s s p rush r (s.planOrder r.group r.lines lines)).state.writeRecord i
          (commitOrder s s p rush r (s.planOrder r.group r.lines lines)).record).reply p (orderStatus (s.planOrder r.group r.lines lines))
          (orderReply tab (highestLine r.lines) (s.planOrder r.group r.lines lines)
            (commitOrder s s p rush r (s.planOrder r.group r.lines lines)).created
            (commitOrder s s p rush r (s.planOrder r.group r.lines lines)).record.totals.total) := by
  unfold performOrder
  rw [hjudge, hrec]

theorem perform_order {i : SlotId} {p : Port} {tab : Nat} {rush : Bool} {lines : List OrderLine} {s : State} (h : tab ≠ 0) :
    perform i p (.order tab rush lines) s = performOrder i p tab rush lines s := if_neg h

theorem judge_opened {s : State} {p : Port} {tab : Nat} (hgroup : s.sameGroup p tab = true) (hopen : (s.dir tab).state = .opened) :
    s.judgeExecution .orderOrVoid p tab = none := by
  simp [State.judgeExecution, State.judgeState, hgroup, hopen]

/-- Settles O18. -/
theorem orderOnOpenTabCommits : Obligations.OrderOnOpenTabCommits := by
  intro s p tag body tab rush lines i r hb ha hread hat hopen plan
  obtain ⟨htab, hgroup, hslot, -, -, hrec, -, -, hrtab⟩ := id hat
  have hne : tab ≠ 0 := by rintro rfl; cases htab
  have hexec : exec (.order p tag body) s = .next (performOrder i p tab rush lines (executing s p .order tag i)) := by
    rw [← perform_order hne]
    exact exec_atReadySlot (k := .order) (tag := tag) rfl hb ha (tabRequestOf_order hread hne) hat (by rw [hopen]; nofun) (by rw [hopen]; nofun) nofun
  have hplan : (executing s p .order tag i).planOrder r.group r.lines lines = plan :=
    planOrder_apart s _ _ s.slots s.directory s.freeList r.group r.lines lines
  have hjudge : (executing s p .order tag i).judgeExecution .orderOrVoid p tab = none := judge_opened (s := executing s p .order tag i) hgroup hopen
  have hrun := performOrder_passed (rush := rush) (lines := lines) hjudge (show ((executing s p .order tag i).slot i).record = some r from hrec)
  rw [hplan] at hrun
  by_cases hnone : plan.accepted = []
  · rw [if_pos hnone] at hrun
    refine exists_answered (hexec.trans (congrArg _ hrun)) rfl fun hreply hothers => ?_
    exact ⟨rfl, fun _ => ⟨hreply, hothers, rfl⟩, fun h => absurd hnone h⟩
  · rw [if_neg hnone] at hrun
    obtain ⟨numbers, hcreated, hrecord, hslots, hcommit⟩ := commitOrder_committed (s := s) (u := executing s p .order tag i)
      (before := executing s p .order tag i) (tag := tag) rush r plan rfl rfl (executing_port s p .order tag i)
      (fun q hq => afterTaking_port_other s hq .order tag)
    generalize hdone : commitOrder (executing s p .order tag i) (executing s p .order tag i) p rush r plan = done at *
    obtain ⟨t, ht, htslots, hc⟩ := hcommit (done.state.writeRecord i done.record).slots (orderStatus plan)
      (orderReply tab (highestLine r.lines) plan done.created done.record.totals.total)
    refine ⟨t, hexec.trans (congrArg _ (hrun.trans ht)), hc.recency, fun h => absurd h hnone, fun _ => ?_⟩
    have hslotsOf : (done.state.writeRecord i done.record).slots =
        ((executing s p .order tag i).writeRecord i done.record).slots := by
      simp only [State.writeRecord, State.setSlot, State.slot, hslots]
    refine ⟨done.record, plan.accepted.map (newLine (lineNumberOf (highestLine r.lines) plan.accepted) done.created), numbers, ?_⟩
    rw [hcreated, hrecord] at *
    refine ⟨slotBecomes_of (u := s) (htslots.trans hslotsOf) rfl, rfl, newLines_contents _ _ _, newLines_numbers _ _, newLines_tickets _ _ _,
      ?_, ?_, hc.items, hc.latched, ?_⟩
    · exact hrtab ▸ hc.tickets
    · refine entryBecomes_of (u := s) ?_ fun _ _ => rfl
      rw [hc.directory, hrtab]
      rfl
    · refine Eq.trans ?_ hc.rest
      have hfree : t.freeList = s.freeList := hc.freeList
      rw [← hfree]

/-! ### ORDER for tab 0 (R3, R11, R24) -/

theorem uncache_frame (s : State) (i : SlotId) : ∃ directory, s.uncache i = { s with directory := directory } := by
  unfold State.uncache
  split
  · exact ⟨_, rfl⟩
  · exact ⟨_, rfl⟩

theorem uncache_dir (s : State) (i : SlotId) (u : Nat) :
    (s.uncache i).dir u = if (s.slot i).tab = some u then { s.dir u with slot := none } else s.dir u := by
  unfold State.uncache
  cases htab : (s.slot i).tab with
  | none => simp
  | some t =>
    by_cases hu : u = t
    · subst hu; simp [State.setCached]
    · rw [if_neg (by simpa using Ne.symm hu)]
      exact State.dir_setDir_other _ hu _

/-- An ORDER for tab 0 as it executes in its slot: the slot cleared and most recent, the tab that it held uncached. -/
def inNewSlot (s : State) (p : Port) (tag : Byte) (i : SlotId) : State :=
  apart s (afterTaking s p .order tag).ports (touched s i) (s.setSlot i CacheSlot.cleared).slots (s.uncache i).directory s.freeList

theorem inNewSlot_eq (s : State) (p : Port) (tag : Byte) (i : SlotId) :
    ((((afterTaking s p .order tag).uncache i).setSlot i CacheSlot.cleared).touch i) = inNewSlot s p tag i := by
  have huncache : (afterTaking s p .order tag).uncache i = { afterTaking s p .order tag with directory := (s.uncache i).directory } := by
    unfold State.uncache
    rw [show ((afterTaking s p .order tag).slot i).tab = (s.slot i).tab from rfl]
    cases (s.slot i).tab <;> rfl
  rw [huncache]
  rfl

theorem exec_newOrder {s : State} {p : Port} {tag : Byte} {body : List Byte} {rush : Bool} {lines : List OrderLine} {i : SlotId}
    (hb : body.length ≤ maxBody) (ha : Admitted s p .order) (hread : readOrder body = some (0, rush, lines)) (hfree : s.freeList ≠ [])
    (hvictim : s.victim = some i) (hclean : s.victimDirty i = false) :
    exec (.order p tag body) s = .next (performNewOrder i p rush lines (inNewSlot s p tag i)) := by
  rw [exec_of_admitted (k := .order) rfl hb ha nofun]
  change Host.Outcome.next (takeOrder p body _) = _
  have hv : (afterTaking s p .order tag).victim = some i := hvictim
  have hd : (afterTaking s p .order tag).victimDirty i = false := hclean
  simp only [takeOrder, hread, if_true, State.cacheNewOrder, show (afterTaking s p .order tag).freeList ≠ [] from hfree, if_false, hv, hd]
  rw [← inNewSlot_eq]
  rfl

theorem openTab_dir (s : State) (i : SlotId) (tab : Nat) (rest : List Nat) (g : Group) :
    EntryBecomes s (s.openTab i tab rest g) tab
      { state := .opened, group := some g, holder := none, paidInPart := false, live := 0, slot := some i } :=
  entryBecomes_of (u := s) rfl fun _ _ => rfl

/-- Settles O17. -/
theorem newOrderOpensTab : Obligations.NewOrderOpensTab := by
  intro s p tag body rush lines g i tab rest hb ha hrole hread hfree hvictim hclean plan uncached
  have hexec := exec_newOrder (tag := tag) hb ha hread (by rw [hfree]; nofun) hvictim hclean
  have hplan : (inNewSlot s p tag i).planOrder g [] lines = plan := planOrder_apart s _ _ _ _ _ g [] lines
  have hgroup : ((inNewSlot s p tag i).role p).group = some g := by
    rw [show (inNewSlot s p tag i).role p = s.role p from rfl, hrole]; rfl
  have hrun : performNewOrder i p rush lines (inNewSlot s p tag i) =
      if plan.accepted = [] then ((inNewSlot s p tag i).clearSlot i).reply p .partly (orderReply 0 0 plan [] 0)
      else
        let c := commitOrder (inNewSlot s p tag i) ((inNewSlot s p tag i).openTab i tab rest g) p rush (newRecord tab g p) plan
        (c.state.setSlot i
          { state := .ready, tab := some tab, incoming := .none, record := some c.record, dirty := true, waits := [] }).reply p
          (orderStatus plan) (orderReply tab 0 plan c.created c.record.totals.total) := by
    unfold performNewOrder
    rw [hgroup]
    simp only [hplan, show (inNewSlot s p tag i).freeList = tab :: rest from hfree]
  have huncached : ∀ w : State, w.directory = (s.uncache i).directory → ∀ u, w.dir u = uncached u := fun w hw u => by
    rw [show w.dir u = (s.uncache i).dir u by unfold State.dir; rw [hw], uncache_dir]
  by_cases hnone : plan.accepted = []
  · rw [if_pos hnone] at hrun
    refine exists_answered (hexec.trans (congrArg _ hrun)) rfl fun hreply hothers => ⟨rfl, fun _ => ?_, fun h => absurd hnone h⟩
    exact ⟨slotBecomes_of (u := s) (by simp [State.clearSlot, State.setSlot, inNewSlot, apart]) rfl, huncached _ rfl, hreply, hothers, rfl⟩
  · rw [if_neg hnone] at hrun
    obtain ⟨numbers, hcreated, hrecord, hslots, hcommit⟩ := commitOrder_committed (s := s)
      (u := (inNewSlot s p tag i).openTab i tab rest g) (before := inNewSlot s p tag i) (tag := tag) rush (newRecord tab g p) plan rfl rfl
      (afterTaking_port s p .order tag) (fun q hq => afterTaking_port_other s hq .order tag)
    generalize hdone : commitOrder (inNewSlot s p tag i) ((inNewSlot s p tag i).openTab i tab rest g) p rush (newRecord tab g p) plan
      = done at *
    obtain ⟨t, ht, htslots, hc⟩ := hcommit (done.state.setSlot i
      { state := .ready, tab := some tab, incoming := .none, record := some done.record, dirty := true, waits := [] }).slots
      (orderStatus plan) (orderReply tab 0 plan done.created done.record.totals.total)
    refine ⟨t, hexec.trans (congrArg _ (hrun.trans ht)), hc.recency, fun h => absurd h hnone, fun _ => ?_⟩
    refine ⟨done.record, numbers, ?_⟩
    have hcopy : done.state.setSlot i
        { state := .ready, tab := some tab, incoming := .none, record := some done.record, dirty := true, waits := [] } =
        { done.state with slots := (s.setSlot i
          { state := .ready, tab := some tab, incoming := .none, record := some done.record, dirty := true, waits := [] }).slots } := by
      simp only [State.setSlot, hslots]
      simp [State.openTab, State.setDir, inNewSlot, apart, State.setSlot]
    rw [hcopy] at htslots
    obtain ⟨hentry, hbefore⟩ := openTab_dir (inNewSlot s p tag i) i tab rest g
    obtain ⟨hself, hother⟩ := entryBecomes_of (u := (inNewSlot s p tag i).openTab i tab rest g) (s := (inNewSlot s p tag i).openTab i tab rest g)
      hc.directory fun _ _ => rfl
    rw [hcreated, hrecord] at *
    refine ⟨hc.freeList, ?_, fun u hu => ?_, slotBecomes_of htslots rfl, rfl, newLines_contents _ _ _, newLines_numbers _ _,
      newLines_tickets _ _ _, hc.tickets, hc.items, hc.latched, hc.rest⟩
    · rw [show t.dir tab = _ from hself, show (newRecord tab g p).tab = tab from rfl, hentry]
      exact congrArg (fun n => ({ state := .opened, group := some g, holder := none, paidInPart := false, live := n, slot := some i } : DirEntry))
        (Nat.zero_add _)
    · refine (hother u hu).trans ?_
      exact (hbefore u hu).trans (huncached (inNewSlot s p tag i) rfl u)

end Sys2Proof.OrderRules
end

section
/-! PROOFS. VOID: the fate of its line, the strike at the kitchen, and the stock that comes back (R58 to R60, R82 to R84). O19. -/

namespace Sys2Proof.VoidRules

-- One theorem after another: as many checks at once take a thread each.
set_option Elab.async false

open Sys2Proof Sys2Proof.Machine Sys2Proof.Statements Sys2Proof.Invariants Sys2Proof.Frames Sys2Proof.Office Sys2Proof.AtSlot
open Sys2Proof.Availability Sys2Proof.KitchenRules Sys2Proof.OrderRules

/-! ### The kitchen does not look at the lane port of a till -/

/-- A state in which a request has been taken at a port that is then `y`, with another recency order. -/
def takenAs (s : State) (p : Port) (y : LanePort) (recency : List SlotId) : State :=
  { s with ports := s.ports.set p.val y, recency := recency }

theorem promote_portTable (w : State) : w.promote.portTable = w.portTable := by
  have h := (promote_promoted w).rest
  generalize w.promote = u at h ⊢
  have hrole := congrArg State.portTable h
  exact hrole

section
variable (s : State) (p : Port) (y : LanePort) (recency : List SlotId)

theorem promoteStation_takenAs (q : Port) : (takenAs s p y recency).promoteStation q = takenAs (s.promoteStation q) p y recency := by
  have hone : ∀ u : State, (takenAs u p y recency).promoteOne q = takenAs (u.promoteOne q) p y recency := fun u => by
    unfold State.promoteOne
    have hlength : ((takenAs u p y recency).station q).queue.length = (u.station q).queue.length := rfl
    have hoverflow : (takenAs u p y recency).overflow = u.overflow := rfl
    rw [hlength, hoverflow]
    split
    · split <;> rfl
    · rfl
  have hfold : ∀ (l : List Nat) (u : State), l.foldl (fun acc _ => acc.promoteOne q) (takenAs u p y recency) =
      takenAs (l.foldl (fun acc _ => acc.promoteOne q) u) p y recency := by
    intro l
    induction l with
    | nil => intro u; rfl
    | cons _ rest ih => intro u; rw [List.foldl_cons, hone, ih, List.foldl_cons]
  exact hfold _ s

theorem promote_takenAs : (takenAs s p y recency).promote = takenAs s.promote p y recency := by
  have hfold : ∀ (l : List Port) (u : State), l.foldl State.promoteStation (takenAs u p y recency) =
      takenAs (l.foldl State.promoteStation u) p y recency := by
    intro l
    induction l with
    | nil => intro u; rfl
    | cons q rest ih => intro u; rw [List.foldl_cons, promoteStation_takenAs, ih, List.foldl_cons]
  exact hfold _ s.retarget

/-- A WITHDRAW goes to a STATION port, not to this one. -/
theorem offerWithdraw_takenAs (hrole : s.role p ≠ .station) (x : Ticket) :
    (takenAs s p y recency).offerWithdraw x = takenAs (s.offerWithdraw x) p y recency := by
  unfold State.offerWithdraw
  rw [show (takenAs s p y recency).isStation x.station = s.isStation x.station from rfl]
  split
  · rename_i hsend
    obtain ⟨-, hstation⟩ := Bool.and_eq_true_iff.1 hsend
    have hne : p ≠ x.station := fun e => hrole (by rw [e]; simpa [State.isStation] using hstation)
    have hport : (takenAs s p y recency).port x.station = s.port x.station := State.port_setPort_other s hne.symm y
    rw [hport]
    split
    · rw [sendOwn_eq, sendOwn_eq, hport]
      unfold takenAs State.setPort
      congr 1
      exact Vector.set_comm _ _ fun e => hne (Fin.ext e)
    · rfl
  · rfl

theorem removeTicket_takenAs (hrole : s.role p ≠ .station) (x : Ticket) :
    (takenAs s p y recency).removeTicket x = takenAs (s.removeTicket x) p y recency := by
  unfold State.removeTicket
  rw [show (takenAs s p y recency).inOverflow x.number = s.inOverflow x.number from rfl]
  split
  · exact offerWithdraw_takenAs ({ s with overflow := _ }.lowerLive x.tab) p y recency hrole x
  · have hremove : (takenAs s p y recency).removeFromQueue x.station x.number = takenAs (s.removeFromQueue x.station x.number) p y recency := by
      rw [removeFromQueue_eq, removeFromQueue_eq]; rfl
    rw [hremove, show (takenAs (s.removeFromQueue x.station x.number) p y recency).lowerLive x.tab =
      takenAs ((s.removeFromQueue x.station x.number).lowerLive x.tab) p y recency from rfl, promote_takenAs]
    refine offerWithdraw_takenAs _ p y recency ?_ x
    simp only [State.role, promote_portTable, removeFromQueue_eq]
    exact hrole

/-- What a VOID does at the kitchen is the same where its request has been taken. -/
theorem kitchenVoid_takenAs (hrole : s.role p ≠ .station) (line : Nat) (fate : VoidFate) :
    (takenAs s p y recency).kitchenVoid line fate = takenAs (s.kitchenVoid line fate) p y recency := by
  cases fate with
  | void => rfl
  | waste => rfl
  | strike x =>
    change (takenAs s p y recency).strikeLine x line = takenAs (s.strikeLine x line) p y recency
    unfold State.strikeLine
    rw [removeTicket_takenAs s p y recency hrole, show (takenAs s p y recency).inOverflow x.number = s.inOverflow x.number from rfl]
    dsimp only
    split
    · rfl
    · split
      · rfl
      · split
        · rw [leaveSent_eq, leaveSent_eq]; rfl
        · rfl

end

/-! ### What a VOID leaves at the kitchen (R83, R84) -/

/-- A VOID changes the kitchen, the live count of a tab, and a STATION port alone. -/
theorem kitchenVoid_frame (s : State) (line : Nat) (fate : VoidFate) : ∃ ports directory stations overflow,
    s.kitchenVoid line fate = { s with ports := ports, directory := directory, stations := stations, overflow := overflow } ∧
    ∀ q, s.role q ≠ .station → ports[q.val] = s.port q := by
  cases fate with
  | void => exact ⟨_, _, _, _, rfl, fun _ _ => rfl⟩
  | waste => exact ⟨_, _, _, _, rfl, fun _ _ => rfl⟩
  | strike x =>
    rcases strikeLine_cases s x line with ⟨-, e⟩ | ⟨-, -, e⟩ | ⟨-, -, e⟩
    · obtain ⟨stations, overflow, hremove, -⟩ := removeTicket_removed s x
      obtain ⟨ports, stations', hoffer, hkept⟩ := offerWithdraw_frame
        { s.setDir x.tab { s.dir x.tab with live := (s.dir x.tab).live - 1 } with stations := stations, overflow := overflow } x
      exact ⟨_, _, _, _, e.trans (hremove.trans hoffer), hkept⟩
    · exact ⟨_, _, _, _, e, fun _ _ => rfl⟩
    · refine ⟨s.ports, s.directory, (if x.state = .sent then (s.mapTicket x.station x.number (fun _ => struckTicket line x)).leaveSent x.station x.number
        else s.mapTicket x.station x.number (fun _ => struckTicket line x)).stations, s.overflow, e.trans ?_, fun _ _ => rfl⟩
      split
      · rw [leaveSent_eq]; rfl
      · rfl

/-- What a strike leaves, by what is left of the ticket and where it stands. -/
theorem strikeLine_spec (s : State) (x : Ticket) (line : Nat) :
    let struck := struckTicket line x
    let mapped := { s.station x.station with
      queue := (s.station x.station).queue.map (fun y => if y.number = x.number then struck else y) }
    (struck.lines ≠ [] → (∃ y ∈ s.overflow, y.number = x.number) →
      s.strikeLine x line = { s with overflow := s.overflow.map (fun y => if y.number = x.number then struck else y) }) ∧
    (struck.lines ≠ [] → (∀ y ∈ s.overflow, y.number ≠ x.number) →
      s.strikeLine x line = s.setStation x.station (if x.state = .sent then leftSent s mapped x.number else mapped)) ∧
    (struck.lines = [] → ∃ w, TicketRemoved s w x ∧ WithdrawOffered w (s.strikeLine x line) x) := by
  intro struck mapped
  have hmapped : s.mapTicket x.station x.number (fun _ => struck) = s.setStation x.station mapped := rfl
  refine ⟨fun hleft hin => ?_, fun hleft hout => ?_, fun hnone => ?_⟩
  · unfold State.strikeLine
    rw [if_neg hleft, if_pos (inOverflow_iff.2 hin)]
  · unfold State.strikeLine
    rw [if_neg hleft, if_neg fun h => by obtain ⟨y, hy, e⟩ := inOverflow_iff.1 h; exact hout y hy e]
    change (if x.state = .sent then (s.mapTicket x.station x.number (fun _ => struck)).leaveSent x.station x.number
      else s.mapTicket x.station x.number (fun _ => struck)) = _
    rw [hmapped]
    split
    · rw [leaveSent_eq, State.station_setStation_self, State.setStation_setStation]; rfl
    · rfl
  · obtain ⟨stations, overflow, hremove, hremoved, -⟩ := removeTicket_removed s x
    unfold State.strikeLine
    rw [if_pos hnone, hremove]
    exact ⟨_, hremoved, offerWithdraw_offered _ x⟩

/-! ### The fate of a line (R59, R82) -/

/-- The fate by the line's ticket: VOID with no ticket, a strike of an unstarted ticket that is found, and WASTE otherwise. -/
theorem voidFate_eq (s : State) (tab : Nat) (x : TabLine) : s.voidFate tab x =
    if x.ticket = none then .void else match x.ticket.bind (s.findLineTicket tab x.number) with
      | none => .waste
      | some u => if u.started then .waste else .strike u := by
  unfold State.voidFate
  cases x.ticket with
  | none => rfl
  | some n =>
    simp only [Option.bind_some, reduceCtorEq, if_false] <;> rfl

theorem foundTicket_eq (s : State) (tab : Nat) (x : TabLine) :
    s.foundTicket tab x = ((x.ticket.bind (s.findLineTicket tab x.number)).map Ticket.number).or x.ticket := by
  unfold State.foundTicket
  cases hx : x.ticket with
  | none => rfl
  | some n => cases h : s.findLineTicket tab x.number n <;> simp [h]

theorem voidFate_isVoid (s : State) (tab : Nat) (x : TabLine) : (s.voidFate tab x).isVoid = true ↔
    x.ticket = none ∨ ∃ u, x.ticket.bind (s.findLineTicket tab x.number) = some u ∧ u.started = false := by
  rw [voidFate_eq]
  by_cases hx : x.ticket = none
  · simp [hx, VoidFate.isVoid]
  · rw [if_neg hx]
    cases h : x.ticket.bind (s.findLineTicket tab x.number) with
    | none => simp [hx, VoidFate.isVoid]
    | some u => cases hu : u.started <;> simp [hx, hu, VoidFate.isVoid]

/-- A fate that is no strike leaves the kitchen as it is. -/
theorem kitchenVoid_still {s : State} {tab : Nat} {x : TabLine} (line : Nat) (h : (s.voidFate tab x).isVoid = false ∨ x.ticket = none) :
    s.kitchenVoid line (s.voidFate tab x) = s := by
  rcases h with h | h
  · cases hf : s.voidFate tab x with
    | waste => rfl
    | void => rw [hf] at h; cases h
    | strike u => rw [hf] at h; cases h
  · rw [voidFate_eq, if_pos h]; rfl

theorem returnsStock_iff (s : State) (item quantity : Nat) : s.returnsStock item quantity = true ↔
    ∃ k, (s.item item).bind Item.tracking = some k ∧ quantity ≤ k.sold := by
  unfold State.returnsStock
  cases h : (s.item item).bind Item.tracking <;> simp

/-- The stock that comes back changes its own item alone. -/
theorem returned_items (u : State) (returned : Bool) (c : Nat) (f : Tracking → Tracking) : ∃ items,
    (if returned then u.mapTracking c f else u) = { u with items := items } ∧
    (returned = true → ∀ w : State, w.items = items → ∀ k, (u.item c).bind Item.tracking = some k →
      w.item c = (u.item c).map (fun y => { y with tracking := some (f k) })) ∧
    (returned = false → items = u.items) ∧
    ∀ w : State, w.items = items → ∀ d, d ≠ c → w.item d = u.item d := by
  cases returned with
  | false =>
    refine ⟨u.items, rfl, nofun, fun _ => rfl, fun w hw d _ => ?_⟩
    unfold State.item; rw [hw]
  | true =>
    have hframe : u.mapTracking c f = { u with items := (u.mapTracking c f).items } := by
      unfold State.mapTracking
      split <;> rfl
    have hitem : ∀ w : State, w.items = (u.mapTracking c f).items → ∀ d, w.item d = (u.mapTracking c f).item d := fun w hw d => by
      unfold State.item; rw [hw]
    refine ⟨(u.mapTracking c f).items, by rw [if_pos rfl]; exact hframe, fun _ w hw k hk => ?_, nofun, fun w hw d hd => ?_⟩
    · rw [hitem w hw, item_mapTracking, if_pos rfl]
      cases h : u.item c with
      | none => rfl
      | some y =>
        rw [h] at hk
        simp only [Option.bind_some] at hk
        simp [hk]
    · rw [hitem w hw, item_mapTracking, if_neg hd]

/-! ### The VOID (R58 to R60) -/

theorem mapTracking_takenAs (u : State) (p : Port) (y : LanePort) (recency : List SlotId) (c : Nat) (f : Tracking → Tracking) :
    (takenAs u p y recency).mapTracking c f = takenAs (u.mapTracking c f) p y recency := by
  unfold State.mapTracking
  rw [show (takenAs u p y recency).item c = u.item c from rfl]
  split <;> rfl

/-- The changes of a VOID in the state `s` before it is taken: the kitchen after it is `v`. -/
theorem voidLine_executing {s : State} {i : SlotId} {p : Port} {tag : Byte} {r : TabRecord} {x : TabLine} {tab n : Nat}
    (htab : r.tab = tab) (hn : x.number = n) (hrole : s.role p ≠ .station) :
    let fate := s.voidFate tab x
    let v := s.kitchenVoid n fate
    let returned := fate.isVoid && s.returnsStock x.item x.quantity
    let state : LineState := if fate.isVoid then .void else .waste
    let lines := setLine r.lines n state (s.foundTicket tab x)
    let r' : TabRecord := { r with lines := lines, totals := s.lineTotals r.group lines }
    let fields := num2 tab ++ num1 n ++ num1 (lineStateCode state) ++ flagByte returned ++ money (s.lineTotals r.group lines).total
    ∃ t items, voidLine i p r x (executing s p .void tag i) = t ∧
      (if returned then v.mapTracking x.item (returnStock x.quantity) else v) = { v with items := items } ∧ t.items = items ∧
      t.slots = (s.setSlot i (changedSlot (s.slot i) r')).slots ∧ t.recency = touched s i ∧ t.stations = v.stations ∧
      t.overflow = v.overflow ∧ t.directory = v.directory ∧ LatchedAndReplied s v t [x.item] p .void tag .ok fields ∧
      { t with
        ports := s.ports, recency := s.recency, slots := s.slots, directory := s.directory, items := s.items, availList := s.availList,
        notices := s.notices, dropped := s.dropped, stations := s.stations, overflow := s.overflow } = s := by
  subst htab hn
  intro fate v returned state lines r' fields
  have htake : (executing s p .void tag i).kitchenVoid x.number fate =
      takenAs v p (waitingPort (s.port p) .void tag) (touched s i) := kitchenVoid_takenAs s p _ _ hrole x.number fate
  obtain ⟨ports, directory, stations, overflow, hv, hports⟩ := kitchenVoid_frame s x.number fate
  change v = _ at hv
  obtain ⟨items, hitems, -⟩ := returned_items v returned x.item (returnStock x.quantity)
  have hsold : (if returned then (takenAs v p (waitingPort (s.port p) .void tag) (touched s i)).mapTracking x.item (returnStock x.quantity)
      else takenAs v p (waitingPort (s.port p) .void tag) (touched s i)) =
      { takenAs v p (waitingPort (s.port p) .void tag) (touched s i) with items := items } := by
    have hmap := mapTracking_takenAs v p (waitingPort (s.port p) .void tag) (touched s i) x.item (returnStock x.quantity)
    rw [hmap, ← apply_ite (fun u => takenAs u p (waitingPort (s.port p) .void tag) (touched s i)), hitems]
    rfl
  have htaken : TakenFrom { takenAs v p (waitingPort (s.port p) .void tag) (touched s i) with items := items } v p .void tag := by
    refine ⟨rfl, rfl, rfl, rfl, rfl, ?_, fun q hq => State.port_setPort_other v hq _⟩
    have hown : v.port p = s.port p := by rw [hv]; exact hports p hrole
    rw [hown]
    exact State.port_setPort_self v p _
  obtain ⟨ports', availList, notices, dropped, hlatch, hreply⟩ :=
    latch_then_reply htaken (s := s) (before := executing s p .void tag i) rfl [x.item]
  have hvoid : voidLine i p r x (executing s p .void tag i) =
      State.reply (State.writeRecord { takenAs v p (waitingPort (s.port p) .void tag) (touched s i) with
        items := items, ports := ports', availList := availList, notices := notices, dropped := dropped } i r') p .ok fields := by
    unfold voidLine
    have hfate : (executing s p .void tag i).voidFate r.tab x = fate := rfl
    have hreturns : (executing s p .void tag i).returnsStock x.item x.quantity = s.returnsStock x.item x.quantity := rfl
    have hfound : (executing s p .void tag i).foundTicket r.tab x = s.foundTicket r.tab x := rfl
    have htotals : ∀ lines, (executing s p .void tag i).lineTotals r.group lines = s.lineTotals r.group lines := fun _ => rfl
    simp only [hfate, hreturns, hfound, htotals, htake]
    change State.reply (State.writeRecord (State.latchItems (if returned then _ else _) _ _) i r') p .ok fields = _
    rw [hsold, hlatch]
  obtain ⟨ports'', hrepl, hlatched⟩ := hreply (State.writeRecord { takenAs v p (waitingPort (s.port p) .void tag) (touched s i) with
        items := items, ports := ports', availList := availList, notices := notices, dropped := dropped } i r') .ok fields rfl rfl rfl rfl rfl
  refine ⟨_, items, hvoid.trans hrepl, hitems, rfl, ?_, rfl, rfl, rfl, rfl, hlatched, ?_⟩
  · clear_value v
    subst hv
    rfl
  · clear_value v
    subst hv
    rfl

theorem performVoid_line {s : State} {i : SlotId} {p : Port} {tab line : Nat} {r : TabRecord}
    (hgroup : s.sameGroup p tab = true) (hopen : (s.dir tab).state = .opened) (hrec : (s.slot i).record = some r) :
    performVoid i p tab line s = match r.lines.find? (fun y => y.number = line && y.state = .active) with
      | none => s.refuse p .tabState { tab := tab }
      | some l => if 9999999 < (s.totalsWithout r line).total then s.refuse p .tabState { tab := tab } else voidLine i p r l s := by
  unfold performVoid
  rw [judge_opened hgroup hopen, hrec]
  rfl

theorem exec_void {s : State} {p : Port} {tag t0 t1 l : Byte} {i : SlotId} {r : TabRecord} (ha : Admitted s p .void) (hl : l ≠ 0)
    (hat : AtReadySlot s p (read2 t0 t1) i r) (hopen : (s.dir (read2 t0 t1)).state = .opened) :
    exec (.void p tag [t0, t1, l]) s = .next (performVoid i p (read2 t0 t1) l.toNat (executing s p .void tag i)) :=
  exec_atReadySlot (k := .void) (tag := tag) (request := .void (read2 t0 t1) l.toNat) rfl (by simp [maxBody]) ha
    (by rw [tabRequestOf, readVoid, if_neg hl]; rfl) hat (by rw [hopen]; nofun) (by rw [hopen]; nofun) nofun

/-- Settles O19. -/
theorem voidChangesLine : Obligations.VoidChangesLine := by
  refine ⟨fun s p tag t0 t1 l i r x ha hl hat hopen hfind hlimit => ?_, fun s p tag t0 t1 l i r ha hl hat hopen hwhy => ?_⟩
  · intro tab found voids returns
    have hexec := exec_void (tag := tag) ha hl hat hopen
    obtain ⟨-, hgroup, -, -, -, hrec, -, -, hrtab⟩ := id hat
    have hnumber : x.number = l.toNat := by
      have := List.find?_some hfind
      simp only [Bool.and_eq_true, decide_eq_true_eq] at this
      exact this.1
    have hrole : s.role p ≠ .station := fun e => by
      obtain ⟨-, hmay, -⟩ := ha
      rw [e] at hmay
      exact absurd hmay (by decide)
    have hrun : performVoid i p tab l.toNat (executing s p .void tag i) = voidLine i p r x (executing s p .void tag i) := by
      rw [performVoid_line (s := executing s p .void tag i) hgroup hopen hrec, hfind]
      exact if_neg (Nat.not_lt.2 hlimit)
    obtain ⟨t, items, ht, hitems, htitems, htslots, hrecency, hstations, hoverflow, hdirectory, hlatched, hrest⟩ :=
      voidLine_executing (s := s) (i := i) (p := p) (tag := tag) (r := r) hrtab hnumber hrole
    have hvoids : (s.voidFate tab x).isVoid = true ↔ voids := voidFate_isVoid s tab x
    have hreturns : ((s.voidFate tab x).isVoid && s.returnsStock x.item x.quantity) = true ↔ returns := by
      rw [Bool.and_eq_true, hvoids, returnsStock_iff]
    have hlines : ∀ state, setLine r.lines l.toNat state (s.foundTicket tab x) = r.lines.map (fun y =>
        if y.number = l.toNat then { y with state := state, ticket := (found.map Ticket.number).or x.ticket } else y) := fun state => by
      rw [foundTicket_eq]; rfl
    obtain ⟨items', hitems', hback, hkept, hothers⟩ := returned_items (s.kitchenVoid l.toNat (s.voidFate tab x))
      ((s.voidFate tab x).isVoid && s.returnsStock x.item x.quantity) x.item (returnStock x.quantity)
    obtain rfl : items' = items := congrArg State.items (hitems'.symm.trans hitems)
    obtain ⟨ports, directory, stations, overflow, hframe, -⟩ := kitchenVoid_frame s l.toNat (s.voidFate tab x)
    have hitem : ∀ c, (s.kitchenVoid l.toNat (s.voidFate tab x)).item c = s.item c := fun c => by rw [hframe]; rfl
    refine ⟨t, _, s.kitchenVoid l.toNat (s.voidFate tab x), (s.voidFate tab x).isVoid && s.returnsStock x.item x.quantity, _,
      hexec.trans (congrArg _ (hrun.trans ht)), hrecency, slotBecomes_of htslots rfl, rfl, rfl, fun h => ?_, fun h => ?_, fun h => ?_,
      fun h => ?_, fun c hc => ?_, fun h => ?_, fun u hu hstarted => ?_, hstations, hoverflow, hdirectory, hlatched, hrest⟩
    · rw [hvoids.2 h]; exact ⟨rfl, hlines _⟩
    · rw [Bool.eq_false_iff.2 (mt hvoids.1 h)]; exact ⟨rfl, hlines _⟩
    · exact ⟨hreturns.2 h, fun k hk => by rw [hback (hreturns.2 h) t htitems k (by rw [hitem]; exact hk), hitem]; rfl⟩
    · refine ⟨Bool.eq_false_iff.2 (mt hreturns.1 h), ?_⟩
      rw [htitems, hkept (Bool.eq_false_iff.2 (mt hreturns.1 h)), hframe]
    · rw [hothers t htitems c hc, hitem]
    · exact kitchenVoid_still _ (h.imp (fun h => Bool.eq_false_iff.2 (mt hvoids.1 h)) id)
    · have hfate : s.voidFate tab x = .strike u := by
        rw [voidFate_eq, if_neg, show x.ticket.bind (s.findLineTicket tab x.number) = some u from hu]
        · simp [hstarted]
        · intro h; rw [show found = none by simp [found, h]] at hu; cases hu
      rw [hfate]
      rw [← hnumber]
      exact strikeLine_spec s u x.number
  · have hexec := exec_void (tag := tag) ha hl hat hopen
    obtain ⟨-, hgroup, -, -, -, hrec, -, -, -⟩ := id hat
    have hrun : performVoid i p (read2 t0 t1) l.toNat (executing s p .void tag i) =
        (executing s p .void tag i).refuse p .tabState { tab := read2 t0 t1 } := by
      rw [performVoid_line (s := executing s p .void tag i) hgroup hopen hrec]
      rcases hwhy with hno | ⟨-, hover⟩
      · rw [List.find?_eq_none.2 fun y hy => by simpa using hno y hy]
      · split
        · rfl
        · exact if_pos hover
    refine exists_answered (hexec.trans (congrArg _ hrun)) rfl fun hreply hothers => ⟨rfl, hreply, hothers, rfl⟩

end Sys2Proof.VoidRules
end

section
/-! PROOFS. Tabs that become FREE by COLLECT and DISCARD TAB (R8, R15, R138 to R140). O49, O50. -/

namespace Sys2Proof.FreeTabs

-- One theorem after another: as many checks at once take a thread each.
set_option Elab.async false

open Sys2Proof Sys2Proof.Machine Sys2Proof.Statements Sys2Proof.Invariants Sys2Proof.Frames Sys2Proof.Office Sys2Proof.AtSlot

/-- The change to FREE of a tab with no holder and no live tickets (R8). -/
theorem freeTab_eq {s : State} {tab : Nat} (hholder : (s.dir tab).holder = none) (hlive : (s.dir tab).live = 0) :
    s.freeTab tab = { s.setDir tab DirEntry.formatted with
      closedList := s.closedList.filter (fun u => u ≠ tab), freeList := s.freeList ++ [tab],
      stations := s.stations.map (markGone tab), audit := s.audit.map (auditFreed tab) } := by
  unfold State.freeTab
  rw [endHold_of_none hholder]
  have hentry : { s.dir tab with state := .free, group := none, holder := none, paidInPart := false, slot := none } = DirEntry.formatted := by
    rw [DirEntry.formatted, ← hlive]
  simp only [hentry]

/-- A tab's directory entry, its lists, the recall lists and the audit, as the change to FREE leaves them. -/
structure Freed (s t : State) (tab : Nat) : Prop where
  entry    : EntryBecomes s t tab DirEntry.formatted
  free     : t.freeList = s.freeList ++ [tab]
  closed   : t.closedList = s.closedList.filter (fun u => u ≠ tab)
  stations : ∀ p, t.station p = { s.station p with
    recalls := (s.station p).recalls.map (fun e => if e.ticket.tab = tab then { e with gone := true } else e) }
  audit    : t.audit = s.audit.map (fun a => if a.position = tab then { a with freed := true } else a)

/-- In a state that differs from `s` in nothing that the change to FREE looks at, it leaves what it leaves in `s`. -/
theorem freed_of {s t : State} {tab : Nat} (hdirectory : t.directory = (s.setDir tab DirEntry.formatted).directory)
    (hfree : t.freeList = s.freeList ++ [tab]) (hclosed : t.closedList = s.closedList.filter (fun u => u ≠ tab))
    (hstations : t.stations = s.stations.map (markGone tab)) (haudit : t.audit = s.audit.map (auditFreed tab)) : Freed s t tab := by
  refine ⟨entryBecomes_of (u := s) hdirectory fun _ _ => rfl, hfree, hclosed, fun p => ?_, haudit⟩
  unfold State.station
  rw [hstations, Vector.getElem_map]
  rfl

/-- A slot with nobody waiting is emptied. -/
theorem emptySlot_of_nobody {s : State} {i : SlotId} (h : (s.slot i).waits = []) (status : Status) :
    s.emptySlot i status = s.setSlot i CacheSlot.cleared := by
  unfold State.emptySlot State.refuseWaiters
  rw [h]
  rfl

/-- A tab's slot with nobody waiting is emptied as the tab becomes FREE. -/
theorem freeAtSlot_eq {s : State} {i : SlotId} {tab : Nat} (hholder : (s.dir tab).holder = none) (hlive : (s.dir tab).live = 0)
    (hwaits : (s.slot i).waits = []) : s.freeAtSlot i tab = { (s.setSlot i CacheSlot.cleared).setDir tab DirEntry.formatted with
      closedList := s.closedList.filter (fun u => u ≠ tab), freeList := s.freeList ++ [tab],
      stations := s.stations.map (markGone tab), audit := s.audit.map (auditFreed tab) } := by
  unfold State.freeAtSlot
  rw [freeTab_eq hholder hlive, emptySlot_of_nobody (by exact hwaits)]
  rfl

/-- An office request that frees its tab at the READY slot, after it has replied. -/
theorem exists_freedAtSlot {s : State} {k : Kind} {tag : Byte} {c : Instr} {tab : Nat} {i : SlotId} {fields : List Byte}
    (hholder : (s.dir tab).holder = none) (hlive : (s.dir tab).live = 0) (hwaits : (s.slot i).waits = [])
    (hrun : exec c s = .next (((executing s 0 k tag i).reply 0 .ok fields).freeAtSlot i tab)) :
    ∃ t, exec c s = .next t ∧ t.recency = touched s i ∧ SlotBecomes s t i CacheSlot.cleared ∧ Freed s t tab ∧
      RepliedAt s t 0 k tag .ok fields ∧ OtherPortsKept s t 0 ∧
      { t with
        ports := s.ports, recency := s.recency, slots := s.slots, directory := s.directory, freeList := s.freeList,
        closedList := s.closedList, stations := s.stations, audit := s.audit } = s := by
  rw [reply_executing (s := s) rfl, freeAtSlot_eq (by exact hholder) (by exact hlive) (by exact hwaits)] at hrun
  refine ⟨_, hrun, rfl, slotBecomes_of (u := s) rfl rfl, freed_of rfl rfl rfl rfl rfl, State.port_setPort_self _ _ _, fun q hq => ?_, by cases s; rfl⟩
  exact (State.port_setPort_other _ hq _).trans (afterTaking_port_other s hq k tag)

/-- An office request on a tab at its READY slot with nobody waiting executes at once. -/
theorem cacheRequest_office {s : State} {k : Kind} {tag : Byte} {tab : Nat} {i : SlotId} (hslot : (s.dir tab).slot = some i)
    (hready : (s.slot i).state = .ready) (htab : (s.slot i).tab = some tab) (hwaits : (s.slot i).waits = []) (hengine : 0 ∉ s.engineWait)
    {request : TabRequest} (hrequest : request.isSplit = false) :
    (afterTaking s 0 k tag).cacheRequest tab { port := 0, request := request } = perform i 0 request (executing s 0 k tag i) :=
  cacheRequest_runs (s := afterTaking s 0 k tag) hslot hready htab hwaits hengine request fun h => by rw [hrequest] at h; cases h

/-- Settles O49. -/
theorem collectSummarisesAndFrees : Obligations.CollectSummarisesAndFrees := by
  refine ⟨fun s tag tab i r ha hfind hclosed hholder hslot hready htab hrec hwaits hengine => ?_, fun s tag ha hnone => ?_⟩
  · have hlive : (s.dir tab).live = 0 := by
      have := List.find?_some hfind
      simpa using this
    have hexec := exec_of_admitted (k := .collect) (tag := tag) (body := []) rfl (by simp [maxBody]) (admitted_of_office ha rfl) nofun
    have hrun : ownerOf .collect 0 [] (afterTaking s 0 .collect tag) =
        ((executing s 0 .collect tag i).reply 0 .ok (summaryBytes r)).freeAtSlot i tab := by
      change takeCollect 0 [] _ = _
      have hfind' : (afterTaking s 0 .collect tag).closedList.find? (fun u => ((afterTaking s 0 .collect tag).dir u).live = 0) = some tab := hfind
      simp only [takeCollect, emptyBody, hfind']
      rw [cacheRequest_office hslot hready htab hwaits hengine rfl]
      change performCollect i 0 tab (executing s 0 .collect tag i) = _
      have hstate : ((executing s 0 .collect tag i).dir tab).state = .closed := hclosed
      have hlive' : ((executing s 0 .collect tag i).dir tab).live = 0 := hlive
      have hrec' : ((executing s 0 .collect tag i).slot i).record = some r := hrec
      simp only [performCollect, hstate, hlive', hrec', lt_irrefl, if_false]
    obtain ⟨t, ht, hrecency, hcleared, hfreed, hreply, hothers, hrest⟩ :=
      exists_freedAtSlot hholder hlive hwaits (hexec.trans (congrArg _ hrun))
    exact ⟨t, ht, hrecency, hfreed.entry, hfreed.free, hfreed.closed, hcleared, hfreed.stations, hfreed.audit, hreply, hothers, hrest⟩
  · have hnot : s.closedList.find? (fun u => (s.dir u).live = 0) = none := List.find?_eq_none.2 fun u hu => by simpa using hnone u hu
    have hexec := exec_of_admitted (k := .collect) (tag := tag) (body := []) rfl (by simp [maxBody]) (admitted_of_office ha rfl) nofun
    have hrun : ownerOf .collect 0 [] (afterTaking s 0 .collect tag) =
        (afterTaking s 0 .collect tag).refuse 0 .empty { figure := s.closedList.length } := by
      change takeCollect 0 [] _ = _
      have hfind' : (afterTaking s 0 .collect tag).closedList.find? (fun u => ((afterTaking s 0 .collect tag).dir u).live = 0) = none := hnot
      simp only [takeCollect, emptyBody, hfind']
      rfl
    exact ⟨_, hexec, hrun.trans (refuse_afterTaking s 0 .collect tag _ _)⟩

/-- Settles O50. -/
theorem discardFreesTab : Obligations.DiscardFreesTab := by
  intro s tag t0 t1 tab freed ha htab
  have hexec := exec_of_admitted (k := .discardTab) (tag := tag) (body := [t0, t1]) rfl (by simp [maxBody]) (admitted_of_office ha rfl) nofun
  have htake : ownerOf .discardTab 0 [t0, t1] (afterTaking s 0 .discardTab tag) = match (s.dir tab).state with
      | .free => (afterTaking s 0 .discardTab tag).refuse 0 .noSuchTab { tab := tab }
      | .tendering | .closed => (afterTaking s 0 .discardTab tag).refuse 0 .tabState { tab := tab }
      | .damaged => discardDamaged 0 tab (afterTaking s 0 .discardTab tag)
      | .opened => (afterTaking s 0 .discardTab tag).cacheRequest tab { port := 0, request := .discardTab tab } := by
    change takeDiscardTab 0 [t0, t1] _ = _
    unfold takeDiscardTab
    exact if_pos htab
  refine ⟨fun hdamaged hholder => ⟨fun hlive => ?_, fun hlive => ?_⟩, fun i r hopen hslot hready hat hrec hwaits hengine => ?_⟩
  · rw [hdamaged] at htake
    have hrun : discardDamaged 0 tab (afterTaking s 0 .discardTab tag) =
        ((afterTaking s 0 .discardTab tag).freeTab tab).reply 0 .ok (num2 tab) :=
      if_neg (by rw [show ((afterTaking s 0 .discardTab tag).dir tab).live = 0 from hlive]; exact lt_irrefl 0)
    rw [freeTab_eq (s := afterTaking s 0 .discardTab tag) hholder hlive] at hrun
    refine exists_answered (hexec.trans (congrArg _ (htake.trans hrun))) rfl fun hreply hothers => ⟨rfl, rfl, ?_⟩
    have h := freed_of (s := s) (tab := tab) (t := State.setPort { (afterTaking s 0 .discardTab tag).setDir tab DirEntry.formatted with
      closedList := s.closedList.filter (fun u => u ≠ tab), freeList := s.freeList ++ [tab],
      stations := s.stations.map (markGone tab), audit := s.audit.map (auditFreed tab) } 0
        (repliedPort (s.port 0) .discardTab tag .ok (num2 tab))) rfl rfl rfl rfl rfl
    exact ⟨h.entry, h.free, h.closed, h.stations, h.audit, hreply, hothers, by cases s; rfl⟩
  · rw [hdamaged] at htake
    have hrun : discardDamaged 0 tab (afterTaking s 0 .discardTab tag) =
        (afterTaking s 0 .discardTab tag).refuse 0 .kitchenOpen { tab := tab } := if_pos (Nat.pos_of_ne_zero hlive)
    exact ⟨_, hexec, (htake.trans hrun).trans (refuse_afterTaking s 0 .discardTab tag _ _)⟩
  · rw [hopen] at htake
    have hperform : exec (.discardTab 0 tag [t0, t1]) s = .next (discardOpen i 0 tab (executing s 0 .discardTab tag i)) := by
      rw [hexec, htake]
      dsimp only
      rw [cacheRequest_office hslot hready hat hwaits hengine rfl]
      change Host.Outcome.next (performDiscard i 0 tab (executing s 0 .discardTab tag i)) = _
      unfold performDiscard
      rw [show ((executing s 0 .discardTab tag i).dir tab).state = .opened from hopen]
    have hopenRun : discardOpen i 0 tab (executing s 0 .discardTab tag i) =
        if r.lines.any (fun l => l.state = .active) then (executing s 0 .discardTab tag i).refuse 0 .tabState { tab := tab }
        else if 0 < (s.dir tab).live then (executing s 0 .discardTab tag i).refuse 0 .kitchenOpen { tab := tab }
        else ((executing s 0 .discardTab tag i).reply 0 .ok (num2 tab)).freeAtSlot i tab := by
      unfold discardOpen
      rw [show ((executing s 0 .discardTab tag i).slot i).record = some r from hrec]
      rfl
    rw [hopenRun] at hperform
    refine ⟨fun hlines hlive hholder => ?_, fun hlines hlive => ?_, fun hactive => ?_⟩
    · rw [if_neg (by simpa using hlines), if_neg (by omega)] at hperform
      obtain ⟨t, ht, hrecency, hcleared, h, hreply, hothers, hrest⟩ := exists_freedAtSlot hholder hlive hwaits hperform
      exact ⟨t, ht, hrecency, hcleared, h.entry, h.free, h.closed, h.stations, h.audit, hreply, hothers, hrest⟩
    · rw [if_neg (by simpa using hlines), if_pos (by omega)] at hperform
      exact exists_answered hperform (by cases s; rfl) fun hreply hothers => ⟨rfl, hreply, hothers, by cases s; rfl⟩
    · rw [if_pos (by simpa using hactive)] at hperform
      exact exists_answered hperform (by cases s; rfl) fun hreply hothers => ⟨rfl, hreply, hothers, by cases s; rfl⟩

end Sys2Proof.FreeTabs
end

section
/-! PROOFS. FLUSH TABS and AUDIT TABS as they are taken (R36 to R41). O52, O53. -/

namespace Sys2Proof.MemoryRequests

-- One theorem after another: as many checks at once take a thread each.
set_option Elab.async false

open Sys2Proof Sys2Proof.Machine Sys2Proof.Statements Sys2Proof.Invariants Sys2Proof.Frames Sys2Proof.Office Sys2Proof.AtSlot

/-! ### FLUSH TABS (R36) -/

/-- A slot that a FLUSH writes. -/
def flushing (x : CacheSlot) : CacheSlot := { x with state := .writing, incoming := .none }

/-- The slots of a list start their write-backs one after another. -/
theorem startWrites_eq (l : List SlotId) (h : l.Nodup) (s : State) : ∃ slots,
    l.foldl (fun acc i => acc.startWrite i .none (acc.slot i).waits) s =
      { s with slots := slots, memQueue := s.memQueue ++ l.map MemOp.writeBack } ∧
    ∀ j : SlotId, slots[j.val] = if j ∈ l then flushing (s.slot j) else s.slot j := by
  induction l generalizing s with
  | nil => exact ⟨s.slots, by simp, fun j => rfl⟩
  | cons i rest ih =>
    obtain ⟨hi, hrest⟩ := List.nodup_cons.1 h
    obtain ⟨slots, hfold, hslots⟩ := ih hrest (s.startWrite i .none (s.slot i).waits)
    refine ⟨slots, ?_, fun j => ?_⟩
    · rw [List.foldl_cons, hfold]
      simp [State.startWrite, State.enqueueOp, State.setSlot]
    · rw [hslots j]
      by_cases hj : j = i
      · subst hj
        rw [if_neg hi, if_pos List.mem_cons_self]
        exact State.slot_setSlot_self _ _ _
      · have hother : (s.startWrite i .none (s.slot i).waits).slot j = s.slot j := State.slot_setSlot_other _ hj _
        rw [hother]
        simp [hj]

theorem mem_flushSlots {s : State} {i : SlotId} : i ∈ s.flushSlots ↔ (s.slot i).state = .ready ∧ (s.slot i).dirty = true := by
  unfold State.flushSlots State.victimDirty
  rw [List.mem_filter, Bool.and_eq_true, decide_eq_true_eq]
  exact and_iff_right (by revert i; decide)

theorem flushSlots_nodup (s : State) : s.flushSlots.Nodup := List.Nodup.filter _ (by decide)

/-- Settles O52. -/
theorem flushQueuesDirtySlots : Obligations.FlushQueuesDirtySlots := by
  intro s tag ha
  have hexec := exec_of_admitted (k := .flushTabs) (tag := tag) (body := []) rfl (by simp [maxBody]) (admitted_of_office ha rfl) nofun
  have hsame : (afterTaking s 0 .flushTabs tag).flushSlots = s.flushSlots := rfl
  have htake : ownerOf .flushTabs 0 [] (afterTaking s 0 .flushTabs tag) =
      if s.flushSlots = [] then (afterTaking s 0 .flushTabs tag).reply 0 .ok (num1 0)
      else { s.flushSlots.foldl (fun acc i => acc.startWrite i .none (acc.slot i).waits) (afterTaking s 0 .flushTabs tag) with
        flush := some { remaining := s.flushSlots, written := 0, firstFault := none } } := by
    change takeFlushTabs 0 [] _ = _
    simp only [takeFlushTabs, emptyBody, if_true, hsame]
  refine ⟨fun hnone => ?_, fun hsome => ?_⟩
  · rw [if_pos hnone] at htake
    exact ⟨_, hexec, htake.trans (reply_afterTaking s 0 .flushTabs tag .ok [0])⟩
  · rw [if_neg hsome] at htake
    obtain ⟨slots, hfold, hslots⟩ := startWrites_eq s.flushSlots (flushSlots_nodup s) (afterTaking s 0 .flushTabs tag)
    rw [hfold] at htake
    have hport := afterTaking_port s 0 .flushTabs tag
    have hrequest := congrArg LanePort.request hport
    have hframes := congrArg LanePort.frames hport
    refine ⟨_, hexec.trans (congrArg _ htake), rfl, rfl, fun i hi => ?_, fun i hi => ?_, ?_, ?_, fun q hq => ?_, rfl⟩
    · exact (hslots i).trans (if_pos (mem_flushSlots.2 hi))
    · exact (hslots i).trans (if_neg (mt mem_flushSlots.1 hi))
    · exact hrequest
    · exact hframes
    · exact afterTaking_port_other s hq .flushTabs tag

/-! ### AUDIT TABS (R38, R39, R41) -/

/-- Settles O53. -/
theorem auditWalkStarts : Obligations.AuditWalkStarts := by
  intro s tag ha
  have hexec := exec_of_admitted (k := .auditTabs) (tag := tag) (body := []) rfl (by simp [maxBody]) (admitted_of_office ha rfl) nofun
  refine ⟨fun hidle k next hlook => ?_, fun hbusy => ?_⟩
  · have hidle' : (afterTaking s 0 .auditTabs tag).audit = none := hidle
    have hlook' : auditLook ((s.setPort 0 (repliedPort (s.port 0) .auditTabs tag .accepted [])).directory.filter (fun e => 1 ≤ e.1)) = (k, next) :=
      hlook
    have htake : ownerOf .auditTabs 0 [] (afterTaking s 0 .auditTabs tag) =
        (s.setPort 0 (repliedPort (s.port 0) .auditTabs tag .accepted [])).walkAudit
          { position := 1, verified := 0, damaged := 0, skipped := 0, firstDamaged := none, freed := false } 1 := by
      change takeAuditTabs 0 [] _ = _
      simp only [takeAuditTabs, emptyBody, if_true, hidle', reply_afterTaking]
    unfold State.walkAudit at htake
    simp only [hlook', Nat.zero_add] at htake
    cases next with
    | none =>
      have hraise := raise_congr (u := { s.setPort 0 (repliedPort (s.port 0) .auditTabs tag .accepted []) with audit := none }) (s := s)
        (.auditDone 0 0 k none) rfl rfl rfl
      dsimp only at htake
      rw [State.raise_frame] at htake
      refine ⟨_, hexec.trans (congrArg _ htake), State.port_setPort_self _ _ _, fun q hq => State.port_setPort_other _ hq _, nofun,
        fun _ => ⟨rfl, rfl, hraise.1⟩, rfl⟩
    | some u =>
      refine ⟨_, hexec.trans (congrArg _ htake), State.port_setPort_self _ _ _, fun q hq => State.port_setPort_other _ hq _,
        fun v hv => ?_, nofun, rfl⟩
      cases hv
      exact ⟨rfl, rfl, rfl⟩
  · obtain ⟨a, hrunning⟩ := Option.ne_none_iff_exists'.1 hbusy
    have hbusy' : (afterTaking s 0 .auditTabs tag).audit = some a := hrunning
    have htake : ownerOf .auditTabs 0 [] (afterTaking s 0 .auditTabs tag) = (afterTaking s 0 .auditTabs tag).refuse 0 .busy {} := by
      change takeAuditTabs 0 [] _ = _
      simp only [takeAuditTabs, emptyBody, if_true, hbusy']
    exact ⟨_, hexec, htake.trans (refuse_afterTaking s 0 .auditTabs tag _ _)⟩

end Sys2Proof.MemoryRequests
end

section
/-! PROOFS. Port resets and loads of the port table (R42, R93, R111, R141, R151, R152, R165). O43, O54. -/

namespace Sys2Proof.PortResets

-- One theorem after another: as many checks at once take a thread each.
set_option Elab.async false

open Sys2Proof Sys2Proof.Machine Sys2Proof.Statements Sys2Proof.Invariants Sys2Proof.Frames Sys2Proof.Office Sys2Proof.AtSlot
open Sys2Proof.KitchenRules

/-! ### Dark handling moves tickets between queues alone -/

/-- Of the stations, only queues differ. -/
def QueuesOnly (s t : State) : Prop := ∀ q, ∃ queue, t.station q = { s.station q with queue := queue }

theorem QueuesOnly.refl (s : State) : QueuesOnly s s := fun _ => ⟨_, rfl⟩

theorem QueuesOnly.trans {s t u : State} (h : QueuesOnly s t) (k : QueuesOnly t u) : QueuesOnly s u := fun q => by
  obtain ⟨queue, hq⟩ := h q
  obtain ⟨queue', hq'⟩ := k q
  exact ⟨queue', by rw [hq', hq]⟩

theorem queuesOnly_setStation (s : State) (p : Port) (queue : List Ticket) :
    QueuesOnly s (s.setStation p { s.station p with queue := queue }) := fun q => by
  by_cases hq : q = p
  · subst hq; exact ⟨queue, State.station_setStation_self _ _ _⟩
  · exact ⟨_, State.station_setStation_other _ hq _⟩

theorem queuesOnly_promote (s : State) : QueuesOnly s s.promote := fun q => ⟨_, (promote_promoted s).queue q⟩

theorem queuesOnly_moveTicket (p a : Port) (acc : State × Nat) (x : Ticket) : QueuesOnly acc.1 (State.moveTicket p a acc x).1 := by
  have hleft : QueuesOnly acc.1 (withoutTicket acc.1 p x) := queuesOnly_setStation _ _ _
  rcases moveTicket_cases p a acc x with ⟨-, h⟩ | ⟨-, -, h⟩ | ⟨-, -, h⟩ <;> rw [h]
  · exact hleft.trans (queuesOnly_setStation _ _ _)
  · exact hleft
  · exact .refl _

theorem queuesOnly_moveToAlternate (s : State) (p : Port) : QueuesOnly s (s.moveToAlternate p).1 := by
  have hfold : ∀ (a : Port) (l : List Ticket) (acc : State × Nat), QueuesOnly acc.1 (l.foldl (State.moveTicket p a) acc).1 := by
    intro a l
    induction l with
    | nil => exact fun acc => .refl _
    | cons x rest ih => exact fun acc => (queuesOnly_moveTicket p a acc x).trans (ih _)
  unfold State.moveToAlternate
  cases s.readyAlternate p with
  | none => exact .refl s
  | some a => exact hfold a _ (s, 0)

/-- After the dark handling of a station it is DARK, with an empty sent list and no ack timer, and its other figures are as they were. -/
theorem darkHandling_figures (s : State) (p : Port) : ∃ queue,
    (s.darkHandling p).1.station p = { s.station p with ready := false, sent := [], ackTimer := none, queue := queue } := by
  have h := (queuesOnly_moveToAlternate (s.setStation p (s.station p).goDark) p).trans (queuesOnly_promote _)
  obtain ⟨queue, hq⟩ := h p
  rw [State.station_setStation_self] at hq
  exact ⟨queue, (congrArg (fun u : State => u.station p) (darkHandling_fst s p)).trans hq⟩

/-! ### A hold that a reset ends -/

/-- Slots keep their wait lists when a hold ends. -/
theorem holdEnded_waits {s t : State} {p : Port} {h : Hold} {cause : HoldCause} (he : HoldEnded s t p h cause) (i : SlotId) :
    (t.slot i).waits = (s.slot i).waits := by
  have hsame : t.slots = s.slots → (t.slot i).waits = (s.slot i).waits := fun e => by unfold State.slot; rw [e]
  cases hpaid : (s.dir h.tab).paidInPart with
  | true => exact hsame (he.paid hpaid).2.1
  | false =>
    by_cases hplan : ∃ j r, (s.dir h.tab).slot = some j ∧ (s.slot j).state = .ready ∧ (s.slot j).tab = some h.tab ∧
        (s.slot j).record = some r ∧ r.plan ≠ none
    · obtain ⟨j, r, hslot, hready, htab, hrec, hne⟩ := hplan
      obtain ⟨hself, hother⟩ := he.plan hpaid j r hslot hready htab hrec hne
      by_cases hij : i = j
      · subst hij; rw [hself]; rfl
      · rw [hother i hij]
    · push Not at hplan
      exact hsame (he.noPlan hpaid hplan)

theorem releaseHold_of_none {s : State} {p : Port} (h : s.hold p = none) (cause : HoldCause) : s.releaseHold p cause = s := by
  unfold State.releaseHold
  rw [h]

/-- What the end of a port's hold can change, whether it has one or not. -/
theorem releaseHold_spec (s : State) (p : Port) (cause : HoldCause) : ∃ holds directory slots notices dropped,
    s.releaseHold p cause =
      { s with holds := holds, directory := directory, slots := slots, notices := notices, dropped := dropped } ∧
    (s.releaseHold p cause).hold p = none ∧ ∀ i, ((s.releaseHold p cause).slot i).waits = (s.slot i).waits := by
  cases hh : s.hold p with
  | none =>
    rw [releaseHold_of_none hh]
    exact ⟨_, _, _, _, _, rfl, hh, fun _ => rfl⟩
  | some h =>
    have he := releaseHold_ended hh cause
    have hrest := he.rest
    refine ⟨(s.releaseHold p cause).holds, (s.releaseHold p cause).directory, (s.releaseHold p cause).slots,
      (s.releaseHold p cause).notices, (s.releaseHold p cause).dropped, ?_, he.hold.1, holdEnded_waits he⟩
    generalize s.releaseHold p cause = t at hrest ⊢
    rw [← hrest]

/-! ### The port reset (R42, R93, R151) -/

/-- The lane port as after part reset, and its request gone from every wait list. -/
def withoutRequest (s : State) (q : Port) : State :=
  { s.setPort q LanePort.fresh with
    slots := s.slots.map (fun x => { x with waits := x.waits.filter (fun w => w.port ≠ q) }),
    engineWait := s.engineWait.filter (fun r => r ≠ q) }

/-- A till's hold is let go by its port's reset. -/
def resetHold (s : State) (q : Port) : State :=
  if (s.role q).isTill then (withoutRequest s q).releaseHold q .portReset else withoutRequest s q

theorem resetPort_eq (s : State) (q : Port) : s.resetPort q = (resetHold s q).kitchenReset q := rfl

theorem resetHold_spec (s : State) (q : Port) : ∃ holds directory slots notices dropped,
    resetHold s q = { s with
      ports := (s.setPort q LanePort.fresh).ports, engineWait := s.engineWait.filter (fun r => r ≠ q), holds := holds,
      directory := directory, slots := slots, notices := notices, dropped := dropped } ∧
    ((s.role q).isTill = true → (resetHold s q).hold q = none) ∧
    ∀ i, ((resetHold s q).slot i).waits = (s.slot i).waits.filter (fun w => w.port ≠ q) := by
  have hwaits : ∀ i, ((withoutRequest s q).slot i).waits = (s.slot i).waits.filter (fun w => w.port ≠ q) := fun i => by
    simp only [withoutRequest, State.slot, Vector.getElem_map]
  unfold resetHold
  by_cases htill : (s.role q).isTill = true
  · rw [if_pos htill]
    obtain ⟨holds, directory, slots, notices, dropped, hframe, hhold, hslots⟩ := releaseHold_spec (withoutRequest s q) q .portReset
    exact ⟨holds, directory, slots, notices, dropped, hframe, fun _ => hhold, fun i => (hslots i).trans (hwaits i)⟩
  · rw [if_neg htill]
    exact ⟨_, _, _, _, _, rfl, fun h => absurd h htill, hwaits⟩

theorem resetPort_wasReset (s : State) (q : Port) : PortWasReset s (s.resetPort q) q := by
  refine ⟨resetHold s q, (((resetHold s q).setStation q { (resetHold s q).station q with recalls := [], lastBump := none }).darkHandling q).1,
    (((resetHold s q).setStation q { (resetHold s q).station q with recalls := [], lastBump := none }).darkHandling q).2,
    fun h htill hh => ?_, fun hno => ?_, darkHandling_handled _ _, ?_⟩
  · unfold resetHold
    rw [if_pos htill]
    exact releaseHold_ended (s := withoutRequest s q) hh .portReset
  · unfold resetHold
    by_cases htill : (s.role q).isTill = true
    · rw [if_pos htill]
      have hnone : s.hold q = none := by simpa [htill] using hno
      exact releaseHold_of_none (s := withoutRequest s q) hnone .portReset
    · rw [if_neg htill]; rfl
  · have hstation : (resetHold s q).station q = s.station q := by
      obtain ⟨holds, directory, slots, notices, dropped, hframe, -⟩ := resetHold_spec s q
      rw [hframe]; rfl
    rw [resetPort_eq]
    unfold State.kitchenReset
    dsimp only
    rw [hstation]

/-- The kitchen's part of a port reset changes the kitchen and may raise a notice. -/
theorem kitchenReset_spec (s : State) (q : Port) : ∃ notices dropped stations overflow,
    s.kitchenReset q = { s with notices := notices, dropped := dropped, stations := stations, overflow := overflow } ∧
    ∃ queue, (s.kitchenReset q).station q = { s.station q with
      ready := false, sent := [], ackTimer := none, queue := queue, recalls := [], lastBump := none, resync := 3 } := by
  have hkept := TicketsKept.darkHandling (s.setStation q { s.station q with recalls := [], lastBump := none }) q
  obtain ⟨queue, hdark⟩ := darkHandling_figures (s.setStation q { s.station q with recalls := [], lastBump := none }) q
  rw [State.station_setStation_self] at hdark
  unfold State.kitchenReset
  dsimp only
  generalize ((s.setStation q { s.station q with recalls := [], lastBump := none }).darkHandling q).2 = moved
  generalize ((s.setStation q { s.station q with recalls := [], lastBump := none }).darkHandling q).1 = u at hkept hdark ⊢
  have hframe := hkept.frame
  generalize hx : { u.station q with resync := 3 } = x
  have hafter : (u.setStation q x) = { s with stations := (u.setStation q x).stations, overflow := u.overflow } :=
    congrArg (fun v : State => v.setStation q x) hframe
  have hfigures : x = { s.station q with
      ready := false, sent := [], ackTimer := none, queue := queue, recalls := [], lastBump := none, resync := 3 } := by
    rw [← hx, hdark]
  split
  · generalize hn : Notice.station q false .portReset moved ((u.setStation q x).station q).queue.length = n
    rw [State.raise_frame]
    refine ⟨_, _, _, _, congrArg (fun v : State => { v with
      notices := ((u.setStation q x).raise n).notices, dropped := ((u.setStation q x).raise n).dropped }) hafter, queue, ?_⟩
    exact (State.station_setStation_self u q x).trans hfigures
  · exact ⟨s.notices, s.dropped, _, _, hafter, queue, (State.station_setStation_self u q x).trans hfigures⟩

/-- What a port reset leaves. -/
theorem resetPort_spec (s : State) (q : Port) : ∃ holds directory slots notices dropped stations overflow,
    s.resetPort q = { s with
      ports := (s.setPort q LanePort.fresh).ports, engineWait := s.engineWait.filter (fun r => r ≠ q), holds := holds,
      directory := directory, slots := slots, notices := notices, dropped := dropped, stations := stations, overflow := overflow } ∧
    ((s.role q).isTill = true → (s.resetPort q).hold q = none) ∧
    (∀ i, ((s.resetPort q).slot i).waits = (s.slot i).waits.filter (fun w => w.port ≠ q)) ∧
    ∃ queue, (s.resetPort q).station q = { s.station q with
      ready := false, sent := [], ackTimer := none, queue := queue, recalls := [], lastBump := none, resync := 3 } := by
  obtain ⟨holds, directory, slots, notices, dropped, hframe, hhold, hwaits⟩ := resetHold_spec s q
  obtain ⟨notices', dropped', stations, overflow, hkitchen, queue, hstation⟩ := kitchenReset_spec (resetHold s q) q
  rw [resetPort_eq]
  have hsame : (resetHold s q).station q = s.station q := by rw [hframe]; rfl
  have hheld : ((resetHold s q).kitchenReset q).hold q = (resetHold s q).hold q := by rw [hkitchen]; rfl
  have hslot : ∀ i, ((resetHold s q).kitchenReset q).slot i = (resetHold s q).slot i := fun i => by rw [hkitchen]; rfl
  refine ⟨holds, directory, slots, notices', dropped', stations, overflow, ?_, fun h => hheld.trans (hhold h),
    fun i => by rw [hslot, hwaits], queue, by rw [hstation, hsame]⟩
  rw [hkitchen, hframe]

theorem reply_withReply {s u : State} {p : Port} {k : Kind} {tag : Byte} (hu : u.port p = waitingPort (s.port p) k tag) (status : Status)
    (fields : List Byte) : u.reply p status fields = withReply u p k tag status fields := by
  rw [reply_at_waiting hu, withReply, hu]
  rfl

theorem port_withReply {s u : State} {p : Port} {k : Kind} {tag : Byte} (hu : u.port p = waitingPort (s.port p) k tag) (status : Status)
    (fields : List Byte) : RepliedAt s (withReply u p k tag status fields) p k tag status fields := by
  unfold RepliedAt withReply
  rw [State.port_setPort_self, hu]
  rfl

/-- Settles O54. -/
theorem resetPortClearsPort : Obligations.ResetPortClearsPort := by
  intro s tag ha
  have hexec : ∀ b : Byte, exec (.resetPort 0 tag [b]) s = .next (takeResetPort 0 [b] (afterTaking s 0 .resetPort tag)) := fun b =>
    exec_of_admitted (k := .resetPort) rfl (by simp [maxBody]) (admitted_of_office ha rfl) nofun
  refine ⟨⟨_, hexec 0, refuse_afterTaking s 0 .resetPort tag _ _⟩, fun q hq => ?_⟩
  have hread : readResetPort [BitVec.ofNat 8 q.val] = some q := by
    have hval : (BitVec.ofNat 8 q.val).toNat = q.val := by
      rw [BitVec.toNat_ofNat]; have := q.isLt; omega
    simp only [readResetPort, hval, q.isLt, dif_pos]
  have hreset := resetPort_wasReset (afterTaking s 0 .resetPort tag) q
  obtain ⟨holds, directory, slots, notices, dropped, stations, overflow, hframe, hhold, hwaits, queue, hstation⟩ :=
    resetPort_spec (afterTaking s 0 .resetPort tag) q
  have htake : takeResetPort 0 [BitVec.ofNat 8 q.val] (afterTaking s 0 .resetPort tag) =
      ((afterTaking s 0 .resetPort tag).resetPort q).reply 0 .ok (num1 q.val) := by
    simp only [takeResetPort, hread, hq, if_false]
  generalize (afterTaking s 0 .resetPort tag).resetPort q = u at hreset hframe hhold hwaits hstation htake
  have hport : u.port 0 = waitingPort (s.port 0) .resetPort tag := by
    rw [hframe]
    exact (State.port_setPort_other _ (Ne.symm hq) _).trans (afterTaking_port s 0 .resetPort tag)
  have hothers : ∀ r, r ≠ 0 → (withReply u 0 .resetPort tag .ok (num1 q.val)).port r = u.port r := fun r hr => State.port_setPort_other _ hr _
  refine ⟨_, u, (hexec _).trans (congrArg _ (htake.trans (reply_withReply hport _ _))), hreset, rfl, ?_, hwaits, ?_, hhold,
    congrArg Station.ready hstation, congrArg Station.recalls hstation, congrArg Station.lastBump hstation, congrArg Station.sent hstation,
    congrArg Station.ackTimer hstation, congrArg Station.resync hstation, port_withReply hport _ _, fun r hr hrq => ?_, ?_⟩
  · rw [hothers q hq, hframe]; exact State.port_setPort_self _ _ _
  · rw [hframe]; rfl
  · rw [hothers r hr, hframe]
    exact (State.port_setPort_other _ hrq _).trans (afterTaking_port_other s hr .resetPort tag)
  · rw [hframe]
    exact ⟨rfl, rfl, rfl, rfl, rfl, rfl⟩

/-! ### LOAD PORTS (R141, R165) -/

theorem loadPort_loaded (s : State) (e : Port × PortRole) : PortEntryLoaded s (s.loadPort e) e := by
  refine ⟨fun hsame => if_pos hsame, fun hne hold hnew => ?_, fun hne hno => ?_⟩
  · have hload : s.loadPort e = (s.releaseHold e.1 .groupChange).setRole e.1 e.2 := by
      unfold State.loadPort
      rw [if_neg hne, if_pos (Bool.and_eq_true_iff.2 ⟨hold, hnew⟩)]
    exact ⟨_, fun h hh => releaseHold_ended hh .groupChange, fun hnone => releaseHold_of_none hnone .groupChange, hload⟩
  · have hload : s.loadPort e = (s.resetPort e.1).setRole e.1 e.2 := by
      unfold State.loadPort
      rw [if_neg hne, if_neg fun h => hno (Bool.and_eq_true_iff.1 h)]
    exact ⟨_, resetPort_wasReset s e.1, hload⟩

theorem loadPorts_loaded (entries : List (Port × PortRole)) (s : State) : PortEntriesLoaded s entries (entries.foldl State.loadPort s) := by
  induction entries generalizing s with
  | nil => rfl
  | cons e rest ih => exact ⟨s.loadPort e, loadPort_loaded s e, ih _⟩

/-- What a load of port entries leaves as it is, and the ports that it does not name. -/
structure PortsLoaded (s t : State) (named : Port → Prop) : Prop where
  others : ∀ q, ¬ named q → t.port q = s.port q
  rest   : { t with
    portTable := s.portTable, ports := s.ports, slots := s.slots, engineWait := s.engineWait, holds := s.holds, directory := s.directory,
    notices := s.notices, dropped := s.dropped, stations := s.stations, overflow := s.overflow } = s

theorem loadPort_ports (s : State) (e : Port × PortRole) : PortsLoaded s (s.loadPort e) (fun q => q = e.1) := by
  unfold State.loadPort
  split
  · exact ⟨fun _ _ => rfl, rfl⟩
  · split
    · obtain ⟨holds, directory, slots, notices, dropped, hframe, -⟩ := releaseHold_spec s e.1 .groupChange
      rw [hframe]
      exact ⟨fun _ _ => rfl, rfl⟩
    · obtain ⟨holds, directory, slots, notices, dropped, stations, overflow, hframe, -⟩ := resetPort_spec s e.1
      rw [hframe]
      exact ⟨fun q hq => State.port_setPort_other s hq _, rfl⟩

theorem loadPort_portTable (s : State) (e : Port × PortRole) : (s.loadPort e).portTable = s.portTable.set e.1.val e.2 := by
  unfold State.loadPort
  split
  · rename_i hsame
    rw [← hsame]
    exact (Vector.set_getElem_self e.1.isLt).symm
  · split
    · obtain ⟨holds, directory, slots, notices, dropped, hframe, -⟩ := releaseHold_spec s e.1 .groupChange
      rw [hframe]; rfl
    · obtain ⟨holds, directory, slots, notices, dropped, stations, overflow, hframe, -⟩ := resetPort_spec s e.1
      rw [hframe]; rfl

theorem loadPorts_ports (entries : List (Port × PortRole)) (s : State) :
    PortsLoaded s (entries.foldl State.loadPort s) (fun q => ∃ e ∈ entries, q = e.1) := by
  induction entries generalizing s with
  | nil => exact ⟨fun _ _ => rfl, rfl⟩
  | cons e rest ih =>
    obtain ⟨hothers, hrest⟩ := ih (s.loadPort e)
    obtain ⟨hothers', hrest'⟩ := loadPort_ports s e
    rw [List.foldl_cons]
    generalize rest.foldl State.loadPort (s.loadPort e) = t at hothers hrest ⊢
    refine ⟨fun q hq => ?_, ?_⟩
    · rw [hothers q fun ⟨x, hx, hqx⟩ => hq ⟨x, List.mem_cons_of_mem _ hx, hqx⟩, hothers' q fun hqe => hq ⟨e, List.mem_cons_self, hqe⟩]
    · rw [← hrest'] at ⊢
      rw [← hrest]

theorem loadPorts_portTable (entries : List (Port × PortRole)) {s u : State} (h : u.portTable = s.portTable) :
    (entries.foldl State.loadPort u).portTable = (entries.foldl (fun acc e => acc.setRole e.1 e.2) s).portTable := by
  induction entries generalizing s u with
  | nil => exact h
  | cons e rest ih =>
    rw [List.foldl_cons, List.foldl_cons]
    exact ih ((loadPort_portTable u e).trans (congrArg (fun v => v.set e.1.val e.2) h))

theorem loadPorts_unchanged {entries : List (Port × PortRole)} {s : State} (h : ∀ e ∈ entries, s.role e.1 = e.2) :
    entries.foldl State.loadPort s = s := by
  induction entries with
  | nil => rfl
  | cons e rest ih =>
    rw [List.foldl_cons, show s.loadPort e = s from if_pos (h e List.mem_cons_self)]
    exact ih fun x hx => h x (List.mem_cons_of_mem _ hx)

/-- The entries of a LOAD PORTS name ports 1 to 23. -/
theorem readLoadPorts_assignable {body : List Byte} {entries : List (Port × PortRole)} (h : readLoadPorts body = some entries) :
    ∀ e ∈ entries, e.1 ≠ 0 := by
  intro e he
  unfold readLoadPorts at h
  split at h
  · split at h
    · obtain ⟨bytes, -, hx⟩ := mem_of_mapM h he
      unfold readPortEntry at hx
      split at hx
      · split at hx
        · rename_i port role hport hrole
          cases hx
          unfold assignablePort at hport
          split at hport
          · split at hport
            · cases hport
            · rename_i hne
              cases hport
              exact fun h0 => hne (congrArg Fin.val h0)
          · cases hport
        · cases hx
      · cases hx
    · cases h
  · cases h

/-- Settles O43. -/
theorem loadPortsAppliesEntries : Obligations.LoadPortsAppliesEntries := by
  intro s tag body entries hb ha hsave hread
  have hexec := exec_of_admitted (k := .loadPorts) (tag := tag) rfl hb (admitted_of_office ha rfl) nofun
  have htake : ownerOf .loadPorts 0 body (afterTaking s 0 .loadPorts tag) =
      (entries.foldl State.loadPort (afterTaking s 0 .loadPorts tag)).reply 0 .ok (num1 entries.length) := by
    change takeLoadPorts 0 body _ = _
    have hidle : (afterTaking s 0 .loadPorts tag).save.isSome = false := by
      rw [show (afterTaking s 0 .loadPorts tag).save = none from hsave]; rfl
    simp only [takeLoadPorts, hidle, hread]
    rfl
  have hzero := readLoadPorts_assignable hread
  have hloaded := loadPorts_loaded entries (afterTaking s 0 .loadPorts tag)
  obtain ⟨hothers, hrest⟩ := loadPorts_ports entries (afterTaking s 0 .loadPorts tag)
  have htable := loadPorts_portTable entries (s := s) (u := afterTaking s 0 .loadPorts tag) rfl
  have hport : (entries.foldl State.loadPort (afterTaking s 0 .loadPorts tag)).port 0 = waitingPort (s.port 0) .loadPorts tag :=
    (hothers 0 fun ⟨e, he, h0⟩ => hzero e he h0.symm).trans (afterTaking_port s 0 .loadPorts tag)
  refine ⟨_, _, hexec.trans (congrArg _ (htake.trans (reply_withReply hport _ _))), hloaded, rfl, htable, port_withReply hport _ _,
    fun hsame => ?_, fun q r hone hne hno => ?_, ?_⟩
  · rw [loadPorts_unchanged (s := afterTaking s 0 .loadPorts tag) hsame]
    exact (reply_withReply (afterTaking_port s 0 .loadPorts tag) _ _).symm.trans (reply_afterTaking s 0 .loadPorts tag _ _)
  · subst hone
    have hq : q ≠ 0 := hzero _ (List.mem_singleton_self _)
    obtain ⟨holds, directory, slots, notices, dropped, stations, overflow, hframe, hhold, -, queue, hstation⟩ :=
      resetPort_spec (afterTaking s 0 .loadPorts tag) q
    have hload : (afterTaking s 0 .loadPorts tag).loadPort (q, r) = ((afterTaking s 0 .loadPorts tag).resetPort q).setRole q r :=
      (if_neg (by exact hne)).trans (if_neg fun h => hno (Bool.and_eq_true_iff.1 h))
    rw [List.foldl_cons, List.foldl_nil, hload]
    generalize (afterTaking s 0 .loadPorts tag).resetPort q = u at hframe hhold hstation ⊢
    refine ⟨?_, congrArg Station.ready hstation, congrArg Station.recalls hstation, congrArg Station.sent hstation,
      congrArg Station.resync hstation, hhold⟩
    refine (State.port_setPort_other _ hq _).trans ?_
    rw [hframe]
    exact State.port_setPort_self _ _ _
  · generalize entries.foldl State.loadPort (afterTaking s 0 .loadPorts tag) = u at hrest ⊢
    have hform : u = { s with
        portTable := u.portTable, ports := u.ports, slots := u.slots, engineWait := u.engineWait, holds := u.holds,
        directory := u.directory, notices := u.notices, dropped := u.dropped, stations := u.stations, overflow := u.overflow } :=
      congrArg (fun v : State => { v with
        portTable := u.portTable, ports := u.ports, slots := u.slots, engineWait := u.engineWait, holds := u.holds,
        directory := u.directory, notices := u.notices, dropped := u.dropped, stations := u.stations, overflow := u.overflow }) hrest
    rw [hform]
    exact ⟨rfl, rfl, rfl, rfl, rfl, rfl, rfl, rfl⟩

end Sys2Proof.PortResets
end

section
/-! PROOFS. The split check: its start, its gate for a SPLIT, and its end (R127 to R130). O55. -/

namespace Sys2Proof.SplitCheck

-- One theorem after another: as many checks at once take a thread each.
set_option Elab.async false

open Sys2Proof Sys2Proof.Machine Sys2Proof.Statements Sys2Proof.Invariants Sys2Proof.Frames Sys2Proof.Office Sys2Proof.AtSlot

/-! ### The gate (R128) -/

theorem executeHead_split {s : State} {i : SlotId} {w : Waiter} {rest : List Waiter} (hready : (s.slot i).state = .ready)
    (hwaits : (s.slot i).waits = w :: rest) (hw : w.port ∉ s.engineWait) (hsplit : w.request.isSplit = true) :
    s.executeHead i = s.splitGate i w := by
  unfold State.executeHead
  rw [hwaits]
  simp [hready, hw, hsplit]

/-- While a check runs a SPLIT joins those who wait for it, or is answered BUSY when 4 wait. -/
theorem splitGate_running {s : State} {cause : CheckCause} (h : s.check = .running cause) (i : SlotId) (w : Waiter) :
    s.splitGate i w = if s.engineWait.length < 4 then { s with engineWait := s.engineWait ++ [w.port] } else s.turnAway i w .busy := by
  unfold State.splitGate
  rw [h]

theorem splitGate_notRun {s : State} (h : s.check = .notRun) (i : SlotId) (w : Waiter) :
    s.splitGate i w = { s with check := .running .split, engineWait := s.engineWait ++ [w.port] } := by
  unfold State.splitGate
  rw [h]

theorem splitGate_failed {s : State} (h : s.check = .failed) (i : SlotId) (w : Waiter) : s.splitGate i w = s.turnAway i w .checkFailed := by
  unfold State.splitGate
  rw [h]

/-- A SPLIT that comes alone to its tab's READY slot stands at the gate. -/
theorem exec_splitGate {s : State} {p : Port} {tag : Byte} {body : List Byte} {tab : Nat} {spec : SplitSpec} {i : SlotId} {r : TabRecord}
    (hb : body.length ≤ maxBody) (ha : Admitted s p .split) (hread : readSplit body = some (tab, spec)) (hat : AtReadySlot s p tab i r)
    (hfree : (s.dir tab).state ≠ .free) (hdamaged : (s.dir tab).state ≠ .damaged) :
    exec (.split p tag body) s = .next (((afterTaking s p .split tag).setSlot i
      { s.slot i with waits := [{ port := p, request := .split tab spec }] }).splitGate i { port := p, request := .split tab spec }) := by
  obtain ⟨htab, hgroup, hslot, hready, hat', -, hwaits, hengine, -⟩ := hat
  rw [exec_reachesCache (k := .split) (tag := tag) rfl hb ha (tabRequestOf_split hread) htab hfree hdamaged hgroup]
  have hjoin : (afterTaking s p .split tag).cacheRequest tab { port := p, request := .split tab spec } =
      ((afterTaking s p .split tag).setSlot i { s.slot i with waits := [{ port := p, request := .split tab spec }] }).executeHead i := by
    have hslot' : ((afterTaking s p .split tag).dir tab).slot = some i := hslot
    have hsame : (afterTaking s p .split tag).slot i = s.slot i := rfl
    simp [State.cacheRequest, State.atOwnSlot, hslot', hsame, hat', hready, hwaits]
  rw [hjoin]
  exact congrArg _ (executeHead_split (rest := []) (by rw [State.slot_setSlot_self]; exact hready) (by rw [State.slot_setSlot_self]) hengine rfl)

/-- A SPLIT alone at its slot that is turned away leaves nothing but its reply. -/
theorem turnAway_alone {s : State} {p : Port} {tag : Byte} {tab : Nat} {spec : SplitSpec} {i : SlotId} (hwaits : (s.slot i).waits = [])
    (status : Status) :
    ((afterTaking s p .split tag).setSlot i { s.slot i with waits := [{ port := p, request := .split tab spec }] }).turnAway i
      { port := p, request := .split tab spec } status =
      s.setPort p (repliedPort (s.port p) .split tag status (Detail.bytes { tab := tab })) := by
  have hpop : ((afterTaking s p .split tag).setSlot i { s.slot i with waits := [{ port := p, request := .split tab spec }] }).popWaiter i =
      afterTaking s p .split tag := by
    unfold State.popWaiter
    rw [State.slot_setSlot_self, State.setSlot_setSlot, List.tail_cons, ← hwaits]
    exact (afterTaking s p .split tag).setSlot_slot i
  unfold State.turnAway
  rw [hpop]
  exact refuse_afterTaking s p .split tag status { tab := tab }

/-! ### A SPLIT that waits, when the check ends (R129) -/

theorem slotHeadedBy_some {s : State} {p : Port} {i : SlotId} (h : s.slotHeadedBy p = some i) :
    ∃ w rest, (s.slot i).waits = w :: rest ∧ w.port = p := by
  have hfound := List.find?_some h
  cases hw : (s.slot i).waits with
  | nil => rw [hw] at hfound; cases hfound
  | cons w rest =>
    rw [hw] at hfound
    exact ⟨w, rest, rfl, by simpa using hfound⟩

/-- A slot whose head is a port's request shows that some slot has it at its head. -/
theorem slotHeadedBy_ne_none {s : State} {p : Port} {i : SlotId} {w : Waiter} {rest : List Waiter} (h : (s.slot i).waits = w :: rest)
    (hw : w.port = p) : s.slotHeadedBy p ≠ none := by
  unfold State.slotHeadedBy
  rw [Ne, List.find?_eq_none]
  intro hnone
  exact hnone i (List.mem_finRange i) (by simp [h, hw])

/-- A SPLIT that a check releases executes where its slot is READY, and otherwise stays. -/
theorem releaseSplit_runs {s : State} {p : Port} {i : SlotId} {w : Waiter} {rest : List Waiter} (hcheck : s.check = .passed)
    (hengine : p ∉ s.engineWait) (hheaded : s.slotHeadedBy p = some i) (hwaits : (s.slot i).waits = w :: rest) (hw : w.port = p) :
    ((s.slot i).state = .ready → s.releaseSplit p = perform i p w.request
      { s.setSlot i { s.slot i with waits := rest } with recency := touched s i }) ∧
    ((s.slot i).state ≠ .ready → s.releaseSplit p = s) := by
  subst hw
  unfold State.releaseSplit
  rw [hheaded]
  exact ⟨fun hready => State.executeHead_runs s i hready hwaits hengine fun _ => hcheck, fun hbusy => if_pos hbusy⟩

/-- A SPLIT that a check fails leaves its slot's wait list with its answer. -/
theorem failSplit_eq {s : State} {p : Port} {i : SlotId} {w : Waiter} {rest : List Waiter} {k : SlotRequest}
    (hheaded : s.slotHeadedBy p = some i) (hwaits : (s.slot i).waits = w :: rest) (hw : w.port = p) (hk : (s.port p).request = some k) :
    s.failSplit p = (s.setSlot i { s.slot i with waits := rest }).setPort p
      ((s.port p).put (replyFrame k.kind k.tag .checkFailed (requestDetail w.request).bytes)) := by
  subst hw
  unfold State.failSplit
  rw [hheaded]
  dsimp only
  rw [hwaits]
  dsimp only
  unfold State.turnAway State.popWaiter
  rw [hwaits]
  exact State.reply_of_request _ w.port .checkFailed _ hk

/-- No port has two requests in the wait lists. -/
structure WaitersDistinct (s : State) : Prop where
  slots  : ∀ i j w w', w ∈ (s.slot i).waits → w' ∈ (s.slot j).waits → w.port = w'.port → i = j
  within : ∀ i, ((s.slot i).waits.map Waiter.port).Nodup

theorem waitersDistinct_of_nodup {s : State} (h : ((allSlots.flatMap (fun i => (s.slot i).waits)).map Waiter.port).Nodup) :
    WaitersDistinct s := by
  rw [List.map_flatMap, List.nodup_flatMap] at h
  obtain ⟨hwithin, hpairs⟩ := h
  refine ⟨fun i j w w' hw hw' hport => ?_, fun i => hwithin i (List.mem_finRange i)⟩
  by_contra hij
  have hsymm : Std.Symm (Function.onFun List.Disjoint fun a => (s.slot a).waits.map Waiter.port) := ⟨fun _ _ hab => hab.symm⟩
  have hdisjoint := hpairs.forall (List.mem_finRange i) (List.mem_finRange j) hij
  exact hdisjoint (List.mem_map_of_mem hw) (hport ▸ List.mem_map_of_mem hw')

/-- What is left of a state when these SPLITs at the heads of their wait lists have been failed. -/
structure SplitsFailed (s t : State) (l : List Port) : Prop where
  headed : ∀ i w rest, (s.slot i).waits = w :: rest →
    (w.port ∈ l → t.slot i = { s.slot i with waits := rest } ∧
      ∀ k, (s.port w.port).request = some k → t.port w.port =
        (s.port w.port).put (replyFrame k.kind k.tag .checkFailed (requestDetail w.request).bytes)) ∧
    (w.port ∉ l → t.slot i = s.slot i)
  nobody : ∀ i, (s.slot i).waits = [] → t.slot i = s.slot i
  others : ∀ q, q ∉ l → t.port q = s.port q
  rest   : { t with ports := s.ports, slots := s.slots } = s

theorem failSplits {l : List Port} (hl : l.Nodup) {s : State} (hd : WaitersDistinct s)
    (hheads : ∀ p ∈ l, s.slotHeadedBy p ≠ none ∧ (s.port p).request ≠ none) : SplitsFailed s (l.foldl State.failSplit s) l := by
  induction l generalizing s with
  | nil => exact ⟨fun i w rest hw => ⟨nofun, fun _ => rfl⟩, fun _ _ => rfl, fun _ _ => rfl, rfl⟩
  | cons p l ih =>
    obtain ⟨hp, hnodup⟩ := List.nodup_cons.1 hl
    obtain ⟨hheaded, hrequest⟩ := hheads p List.mem_cons_self
    obtain ⟨i, hheaded⟩ := Option.ne_none_iff_exists'.1 hheaded
    obtain ⟨k, hk⟩ := Option.ne_none_iff_exists'.1 hrequest
    obtain ⟨w, rest, hwaits, rfl⟩ := slotHeadedBy_some hheaded
    rw [List.foldl_cons, failSplit_eq hheaded hwaits rfl hk]
    generalize hu : (s.setSlot i { s.slot i with waits := rest }).setPort w.port
      ((s.port w.port).put (replyFrame k.kind k.tag .checkFailed (requestDetail w.request).bytes)) = u
    have hself : u.slot i = { s.slot i with waits := rest } := by rw [← hu]; exact State.slot_setSlot_self _ _ _
    have hother : ∀ j, j ≠ i → u.slot j = s.slot j := fun j hj => by rw [← hu]; exact State.slot_setSlot_other _ hj _
    have hport : ∀ q, q ≠ w.port → u.port q = s.port q := fun q hq => by rw [← hu]; exact State.port_setPort_other _ hq _
    have hmem : ∀ j x, x ∈ (u.slot j).waits → x ∈ (s.slot j).waits := fun j x hx => by
      by_cases hj : j = i
      · subst hj; rw [hself] at hx; rw [hwaits]; exact List.mem_cons_of_mem _ hx
      · rwa [hother j hj] at hx
    -- the head of another slot is another port's
    have hapart : ∀ q ∈ l, ∃ j x tail, j ≠ i ∧ (s.slot j).waits = x :: tail ∧ x.port = q := fun q hq => by
      obtain ⟨j, hj⟩ := Option.ne_none_iff_exists'.1 (hheads q (List.mem_cons_of_mem _ hq)).1
      obtain ⟨x, tail, hx, hxq⟩ := slotHeadedBy_some hj
      refine ⟨j, x, tail, fun hji => ?_, hx, hxq⟩
      subst hji
      rw [hwaits] at hx
      cases hx
      exact hp (hxq ▸ hq)
    have hdu : WaitersDistinct u := ⟨fun a b x y hx hy => hd.slots a b x y (hmem a x hx) (hmem b y hy), fun j => by
      by_cases hj : j = i
      · subst hj; rw [hself]
        have := hd.within j
        rw [hwaits] at this
        exact (List.nodup_cons.1 this).2
      · rw [hother j hj]; exact hd.within j⟩
    have hheadsu : ∀ q ∈ l, u.slotHeadedBy q ≠ none ∧ (u.port q).request ≠ none := fun q hq => by
      obtain ⟨j, x, tail, hj, hx, hxq⟩ := hapart q hq
      refine ⟨slotHeadedBy_ne_none (by rw [hother j hj]; exact hx) hxq, ?_⟩
      rw [hport q fun e => hp (e ▸ hq)]
      exact (hheads q (List.mem_cons_of_mem _ hq)).2
    obtain ⟨hfailed, hnobody, hothers, hrest⟩ := ih hnodup hdu hheadsu
    refine ⟨fun j x tail hx => ?_, fun j hj => ?_, fun q hq => ?_, ?_⟩
    · by_cases hj : j = i
      · subst hj
        obtain ⟨rfl, rfl⟩ : w = x ∧ rest = tail := by rw [hwaits] at hx; cases hx; exact ⟨rfl, rfl⟩
        refine ⟨fun _ => ⟨?_, fun k' hk' => ?_⟩, fun hno => absurd List.mem_cons_self hno⟩
        · rw [← hself]
          cases hrest : rest with
          | nil => exact hnobody j (by rw [hself, hrest])
          | cons y ys =>
            refine ((hfailed j y ys (by rw [hself, hrest])).2 fun hy => ?_)
            obtain ⟨a, z, zs, ha, hz, hzy⟩ := hapart y.port hy
            exact ha (hd.slots a j z y (by rw [hz]; exact List.mem_cons_self)
              (by rw [hwaits, hrest]; exact List.mem_cons_of_mem _ List.mem_cons_self) hzy)
        · obtain rfl : k = k' := Option.some.inj (hk.symm.trans hk')
          rw [hothers w.port hp, ← hu]
          exact State.port_setPort_self _ _ _
      · have hne : x.port ≠ w.port := fun e => hj (hd.slots j i x w (by rw [hx]; exact List.mem_cons_self)
          (by rw [hwaits]; exact List.mem_cons_self) e)
        obtain ⟨hin, hout⟩ := hfailed j x tail (by rw [hother j hj]; exact hx)
        rw [hother j hj, hport x.port hne] at hin
        rw [hother j hj] at hout
        refine ⟨fun hmemx => hin ((List.mem_cons.1 hmemx).resolve_left hne), fun hno => hout fun h => hno (List.mem_cons_of_mem _ h)⟩
    · have hji : j ≠ i := fun e => by subst e; rw [hwaits] at hj; cases hj
      rw [hnobody j (by rw [hother j hji]; exact hj), hother j hji]
    · obtain ⟨hqw, hql⟩ := not_or.1 (mt List.mem_cons.2 hq)
      rw [hothers q hql, hport q hqw]
    · have h := congrArg (fun v : State => { v with ports := s.ports, slots := s.slots }) hrest
      refine h.trans ?_
      rw [← hu]
      rfl

/-- The end of a check, before those who waited are released or answered. -/
def checkEnded (s : State) (cause : CheckCause) (passed : Bool) : State :=
  { s with check := if passed then .passed else .failed, engineWait := [] }.raise (.check passed cause s.engineWait.length)

theorem endCheck_eq {s : State} {cause : CheckCause} (h : s.check = .running cause) (passed : Bool) :
    s.endCheck passed = s.engineWait.foldl (if passed then State.releaseSplit else State.failSplit) (checkEnded s cause passed) := by
  unfold State.endCheck
  rw [h]
  rfl

theorem checkEnded_frame (s : State) (cause : CheckCause) (passed : Bool) : checkEnded s cause passed =
    { s with
      check := if passed then .passed else .failed, engineWait := [],
      notices := (s.raise (.check passed cause s.engineWait.length)).notices,
      dropped := (s.raise (.check passed cause s.engineWait.length)).dropped } := by
  obtain ⟨hnotices, hdropped⟩ := raise_congr (s := s) (u := { s with check := if passed then .passed else .failed, engineWait := [] })
    (.check passed cause s.engineWait.length) rfl rfl rfl
  unfold checkEnded
  rw [State.raise_frame, hnotices, hdropped]

/-- A check that fails answers every SPLIT that waits. -/
theorem endCheck_failed {s : State} {cause : CheckCause} (h : s.check = .running cause) (hn : s.engineWait.Nodup) (hd : WaitersDistinct s)
    (hheads : ∀ p ∈ s.engineWait, s.slotHeadedBy p ≠ none ∧ (s.port p).request ≠ none) :
    SplitsFailed (checkEnded s cause false) (s.endCheck false) s.engineWait := by
  rw [endCheck_eq h]
  rw [checkEnded_frame]
  exact failSplits hn ⟨hd.slots, hd.within⟩ hheads

/-- Settles O55. -/
theorem splitCheckRunsAndEnds : Obligations.SplitCheckRunsAndEnds := by
  refine ⟨fun s tag ha hidle => ?_, fun s p tag body tab spec i r hb ha hread hat hfree hdamaged => ?_,
    fun s cause passed hrunning hnobody => ?_, fun s cause p i w rest k hrunning hone hheaded hwaits hw hk => ?_,
    fun s cause hrunning hn hports hheads => ?_, fun s cause p i w rest hrunning hone hheaded hwaits hw hsplit => ?_,
    fun s cause hrunning => ?_, fun s p i w rest hpassed hengine hheaded hwaits hw hsplit => ?_⟩
  · have hexec := exec_of_admitted (k := .checkSplit) (tag := tag) (body := []) rfl (by simp [maxBody]) (admitted_of_office ha rfl) nofun
    have htake : ownerOf .checkSplit 0 [] (afterTaking s 0 .checkSplit tag) =
        State.reply { afterTaking s 0 .checkSplit tag with check := .running .checkSplit } 0 .accepted [] := by
      change takeCheckSplit 0 [] _ = _
      unfold takeCheckSplit
      cases hcheck : s.check with
      | running cause => exact absurd hcheck (hidle cause)
      | notRun | passed | failed =>
        have hcheck' := hcheck
        change (afterTaking s 0 .checkSplit tag).check = _ at hcheck'
        simp only [emptyBody, if_true, hcheck']
    exact ⟨_, hexec.trans (congrArg _ (htake.trans (reply_with_fields (s := s) (v := { s with check := .running .checkSplit }) rfl rfl _ _))),
      rfl, rfl⟩
  · obtain ⟨-, -, -, -, -, -, hwaits, -⟩ := id hat
    have hexec := exec_splitGate (tag := tag) hb ha hread hat hfree hdamaged
    refine ⟨fun hcheck => ?_, fun cause hcheck hroom => ?_, fun cause hcheck hfull => ?_, fun hcheck => ?_⟩
    · rw [hexec, splitGate_notRun (by exact hcheck)]; rfl
    · rw [hexec, splitGate_running (by exact hcheck), if_pos (by exact hroom)]; rfl
    · rw [hexec, splitGate_running (by exact hcheck), if_neg (by exact Nat.not_lt.2 hfull)]
      exact ⟨_, rfl, turnAway_alone hwaits .busy⟩
    · rw [hexec, splitGate_failed (by exact hcheck)]
      exact ⟨_, rfl, turnAway_alone hwaits .checkFailed⟩
  · change Host.Outcome.next (s.endCheck passed) = _
    rw [endCheck_eq hrunning, hnobody, List.foldl_nil, checkEnded, hnobody]
    rfl
  · have hend : s.endCheck false = (checkEnded s cause false).failSplit p := by rw [endCheck_eq hrunning, hone]; rfl
    rw [checkEnded_frame] at hend
    refine ⟨s.endCheck false, rfl, ?_⟩
    rw [hend, failSplit_eq (i := i) (w := w) (rest := rest) (k := k) (by exact hheaded) (by exact hwaits) hw (by exact hk)]
    exact ⟨rfl, rfl, slotBecomes_of (u := s) rfl rfl, State.port_setPort_self _ _ _, fun q hq => State.port_setPort_other _ hq _, rfl, rfl, rfl⟩
  · obtain ⟨hheaded, hnobody, hothers, hrest⟩ := endCheck_failed hrunning hn (waitersDistinct_of_nodup hports) hheads
    refine ⟨s.endCheck false, rfl, ?_⟩
    generalize s.endCheck false = t at hheaded hnobody hothers hrest ⊢
    rw [checkEnded_frame] at hheaded hnobody hothers hrest
    have hform : t = { s with
        ports := t.ports, slots := t.slots, check := .failed, engineWait := [],
        notices := (s.raise (.check false cause s.engineWait.length)).notices,
        dropped := (s.raise (.check false cause s.engineWait.length)).dropped } :=
      congrArg (fun v : State => { v with ports := t.ports, slots := t.slots }) hrest
    rw [hform]
    rw [hform] at hheaded hnobody hothers
    exact ⟨rfl, rfl, rfl, rfl, hheaded, hnobody, hothers, rfl⟩
  · intro ended
    have hend : s.endCheck true = ended.releaseSplit p := by rw [endCheck_eq hrunning, hone, checkEnded, hone]; rfl
    have hended : ended = checkEnded s cause true := by rw [checkEnded, hone]; rfl
    rw [checkEnded_frame] at hended
    have hrun := releaseSplit_runs (s := ended) (p := p) (i := i) (w := w) (rest := rest) (by rw [hended]; rfl) (by rw [hended]; nofun)
      (by rw [hended]; exact hheaded) (by rw [hended]; exact hwaits) hw
    have hslot : ended.slot i = s.slot i := by rw [hended]; rfl
    have hrecency : touched ended i = touched s i := by rw [hended]; rfl
    rw [hslot, hrecency, ← hend] at hrun
    exact ⟨fun hready => congrArg _ (hrun.1 hready), fun hbusy => congrArg _ (hrun.2 hbusy)⟩
  · change Host.Outcome.next (s.endCheck true) = _
    rw [endCheck_eq hrunning]
    rfl
  · exact releaseSplit_runs hpassed hengine hheaded hwaits hw

end Sys2Proof.SplitCheck
end

section
/-! PROOFS. The audit read's end (R40, R41), requests at the cache (R21 to R24), and the head of a wait list (R25). O59, O60. -/

namespace Sys2Proof.CacheRules

-- One theorem after another: as many checks at once take a thread each.
set_option Elab.async false

open Sys2Proof Sys2Proof.Machine Sys2Proof.Statements Sys2Proof.Invariants Sys2Proof.Frames Sys2Proof.Office Sys2Proof.AtSlot
open Sys2Proof.OrderRules

/-! ### The end of an audit (R40, R41) -/

/-- A walk past every tab that the directory lists ends. -/
theorem walkAudit_ends {s : State} {tab : Nat} (h : ∀ e ∈ s.directory, e.1 ≤ tab) (a : Audit) :
    s.walkAudit a (tab + 1) = { s with audit := none }.raise (.auditDone a.verified a.damaged a.skipped a.firstDamaged) := by
  have hnone : s.directory.filter (fun e => tab + 1 ≤ e.1) = [] := by
    rw [List.filter_eq_nil_iff]
    intro e he
    have := h e he
    simp only [decide_eq_true_eq]
    omega
  unfold State.walkAudit
  rw [hnone]
  rfl

theorem setDir_keys {s : State} {bound tab : Nat} (h : ∀ e ∈ s.directory, e.1 ≤ bound) (htab : tab ≤ bound) (e : DirEntry) :
    ∀ x ∈ (s.setDir tab e).directory, x.1 ≤ bound := by
  intro x hx
  unfold State.setDir at hx
  dsimp only at hx
  split at hx
  · exact h x (mem_tableDrop hx)
  · rcases mem_tablePut hx with rfl | hx
    · exact htab
    · exact h x hx

theorem damageTab_keys {s : State} {tab : Nat} (h : ∀ e ∈ s.directory, e.1 ≤ tab) : ∀ e ∈ (s.damageTab tab).directory, e.1 ≤ tab := by
  have hend : ∀ e ∈ (s.endHold tab).directory, e.1 ≤ tab := by
    unfold State.endHold
    split
    · exact h
    · exact setDir_keys h le_rfl _
  exact setDir_keys hend le_rfl { (s.endHold tab).dir tab with state := .damaged, slot := none }

/-- The end of an audit read, tab by tab of R40. -/
theorem endAuditRead_eq {s : State} {a : Audit} {tab : Nat} (haudit : s.audit = some a) (outcome : Option Bool) :
    s.endAuditRead tab outcome = if a.freed = true ∨ outcome = none then s.walkAudit (auditSkip a) (tab + 1)
      else if outcome = some true then s.walkAudit { a with verified := a.verified + 1 } (tab + 1)
      else if mayDamage (s.dir tab) then (s.auditDamage tab).walkAudit
        { a with damaged := a.damaged + 1, firstDamaged := a.firstDamaged.or (some tab) } (tab + 1)
      else s.walkAudit (auditSkip a) (tab + 1) := by
  unfold State.endAuditRead
  rw [haudit]
  cases hfreed : a.freed <;> rcases outcome with _ | _ | _ <;> simp [hfreed]

theorem mayDamage_iff (e : DirEntry) : mayDamage e = true ↔
    (e.state = .opened ∨ e.state = .tendering ∨ e.state = .closed) ∧ e.slot = none := by
  simp [mayDamage, or_assoc]

theorem exec_auditReadComplete {s : State} {tab deadline : Nat} (h : s.memRunning = some { op := .auditRead tab, deadline := deadline })
    (read : MemRead) : exec (.auditReadComplete read) s = .next (if s.now ≤ deadline then
      State.endAuditRead { s with memRunning := none } tab (some (passes tab (s.readMemory tab read)).isSome) else s) := by
  change Host.Outcome.next (match s.memRunning with
    | some { op := .auditRead t, deadline := d } =>
      if s.inTime d then s.freeController.endAuditRead t (some (passes t (s.readMemory t read)).isSome) else s
    | _ => s) = _
  rw [h]
  simp only [State.inTime_iff]
  rfl

/-- Settles O59. -/
theorem auditReadIsJudged : Obligations.AuditReadIsJudged := by
  intro s a tab deadline hrunning haudit hkeys
  have hend := endAuditRead_eq (s := { s with memRunning := none }) (tab := tab) haudit
  have hskip : State.walkAudit { s with memRunning := none } (auditSkip a) (tab + 1) =
      { s with memRunning := none, audit := none }.raise (.auditDone a.verified a.damaged (a.skipped + 1) a.firstDamaged) :=
    walkAudit_ends (s := { s with memRunning := none }) hkeys _
  refine ⟨fun read hin hfreed hpass => ?_, fun read hin hwhy => ?_, fun read hin hfreed hfails hmay => ?_, fun read hlate => ?_, ?_, mayDamage_iff _⟩
  · rw [exec_auditReadComplete hrunning, if_pos hin, hend, hpass, hfreed]
    exact congrArg _ (walkAudit_ends (s := { s with memRunning := none }) hkeys _)
  · rw [exec_auditReadComplete hrunning, if_pos hin, hend]
    by_cases hfreed : a.freed = true
    · rw [if_pos (.inl hfreed), hskip]
    · obtain ⟨hfails, hmay⟩ := hwhy.resolve_left hfreed
      rw [hfails, if_neg (by simp [hfreed]), if_neg (by simp), if_neg (by exact ne_true_of_eq_false hmay), hskip]
  · obtain ⟨hentry, hothers, hheld, hfree, hclosed, hrest⟩ := State.damageTab_spec { s with memRunning := none } tab
    have hkeys' := damageTab_keys (s := { s with memRunning := none }) hkeys
    have hrun : exec (.auditReadComplete read) s = .next
        (State.raise { (State.damageTab { s with memRunning := none } tab).raise (.tab tab .damaged) with audit := none }
          (.auditDone a.verified (a.damaged + 1) a.skipped (a.firstDamaged.or (some tab)))) := by
      rw [exec_auditReadComplete hrunning, if_pos hin, hend, hfails, if_neg (by simp [hfreed]), if_neg (by simp), if_pos (by exact hmay)]
      refine congrArg _ (walkAudit_ends ?_ _)
      unfold State.auditDamage
      rw [State.raise_frame]
      exact hkeys'
    generalize State.damageTab { s with memRunning := none } tab = v at hentry hothers hheld hfree hclosed hrest hrun
    have hform : v = { s with memRunning := none, directory := v.directory, holds := v.holds, closedList := v.closedList } :=
      congrArg (fun w : State => { w with directory := v.directory, holds := v.holds, closedList := v.closedList }) hrest
    have hmask : v.mask = s.mask ∧ v.notices = s.notices ∧ v.dropped = s.dropped := by rw [hform]; exact ⟨rfl, rfl, rfl⟩
    have hfirst := raise_congr (u := v) (s := s) (.tab tab .damaged) hmask.1 hmask.2.1 hmask.2.2
    have hsecond := raise_congr (u := { v.raise (.tab tab .damaged) with audit := none }) (s := s.raise (.tab tab .damaged))
      (.auditDone a.verified (a.damaged + 1) a.skipped (a.firstDamaged.or (some tab)))
      (by rw [State.raise_mask, State.raise_mask]; exact hmask.1) hfirst.1 hfirst.2
    have ht : State.raise { v.raise (.tab tab .damaged) with audit := none }
        (.auditDone a.verified (a.damaged + 1) a.skipped (a.firstDamaged.or (some tab))) =
        { s with
          memRunning := none, directory := v.directory, holds := v.holds, closedList := v.closedList, audit := none,
          notices := ((s.raise (.tab tab .damaged)).raise
            (.auditDone a.verified (a.damaged + 1) a.skipped (a.firstDamaged.or (some tab)))).notices,
          dropped := ((s.raise (.tab tab .damaged)).raise
            (.auditDone a.verified (a.damaged + 1) a.skipped (a.firstDamaged.or (some tab)))).dropped } := by
      rw [State.raise_frame, hsecond.1, hsecond.2, State.raise_frame v]
      rw [hform]
    rw [ht] at hrun
    exact ⟨_, hrun, rfl, rfl, ⟨hentry, hothers⟩, fun q hq => hheld q hq, hfree, hclosed, rfl, rfl, rfl, rfl, rfl, rfl⟩
  · rw [exec_auditReadComplete hrunning, if_neg (Nat.not_le.2 hlate)]
  · change Host.Outcome.next (match s.memRunning with
      | some { op := .auditRead t, deadline := d } => (s.freeController.reach d).endAuditRead t none
      | _ => s) = _
    rw [hrunning]
    dsimp only
    rw [endAuditRead_eq (s := s.freeController.reach deadline) haudit, if_pos (.inr rfl)]
    exact congrArg _ (walkAudit_ends (s := s.freeController.reach deadline) hkeys _)

/-! ### Requests at the cache (R21 to R24) -/

/-- A request on an existing tab that is judged good goes to the cache. -/
theorem exec_asksCache {s : State} {p : Port} {k : Kind} {tag : Byte} {body : List Byte} {c : Instr} {tab : Nat} {request : TabRequest}
    (h : AsksCache s p k tag body c tab request) :
    exec c s = .next ((afterTaking s p k tag).cacheRequest tab { port := p, request := request }) := by
  rcases h with ⟨⟨hc, hb, ha, -, hreq⟩, htab, hfree, hdamaged, hgroup⟩ | ⟨rfl, ha, hc, hb, hwhich⟩
  · exact exec_reachesCache hc hb ha hreq htab hfree hdamaged hgroup
  · obtain ⟨-, hrole, -⟩ := id ha
    rcases hwhich with ⟨rfl, hreq, htab, hfree, hdamaged⟩ | ⟨rfl, hread, rfl, htab, hopen⟩ | ⟨rfl, rfl, rfl, hfind⟩
    · rw [exec_of_admitted hc hb (admitted_of_office ha rfl) nofun]
      obtain ⟨⟨x, page⟩, hread, hx⟩ := Option.map_eq_some_iff.1 (show (readReadTab body).map (fun x => (x.1, TabRequest.readTab x.1 x.2)) =
        some (tab, request) from hreq)
      cases hx
      have hjudge : (afterTaking s 0 .readTab tag).judgeReadTaken 0 x = none := by
        unfold State.judgeReadTaken
        rw [show (afterTaking s 0 .readTab tag).dir x = s.dir x from rfl, show (afterTaking s 0 .readTab tag).role 0 = .uplink from hrole]
        simp [htab, hfree, hdamaged, PortRole.isTill]
      change Host.Outcome.next (takeReadTab 0 body _) = _
      simp only [takeReadTab, hread, hjudge]
    · rw [exec_of_admitted hc hb (admitted_of_office ha rfl) nofun]
      change Host.Outcome.next (takeDiscardTab 0 body _) = _
      unfold takeDiscardTab
      rw [hread]
      dsimp only
      rw [if_pos htab, show ((afterTaking s 0 .discardTab tag).dir tab).state = .opened from hopen]
    · rw [exec_of_admitted hc hb (admitted_of_office ha rfl) nofun]
      change Host.Outcome.next (takeCollect 0 [] _) = _
      have hfind' : (afterTaking s 0 .collect tag).closedList.find? (fun u => ((afterTaking s 0 .collect tag).dir u).live = 0) = some tab := hfind
      simp only [takeCollect, emptyBody, if_true, hfind']

/-- R21 at a slot whose wait list a request for this tab joins. -/
theorem cacheRequest_joins {s : State} {tab : Nat} {i : SlotId} (h : JoinsAt s tab i) (w : Waiter) : s.cacheRequest tab w = s.joinWaits i w := by
  obtain ⟨hslot, hwhere⟩ := h
  unfold State.cacheRequest
  rw [hslot]
  dsimp only
  rcases hwhere with ⟨hat, hstate⟩ | ⟨hnot, hincoming⟩
  · rw [if_pos hat]
    unfold State.atOwnSlot
    rcases hstate with hfetching | ⟨hready, hwaits⟩ | ⟨hwriting, hincoming⟩
    · rw [hfetching]
    · rw [hready]; exact if_neg hwaits
    · rw [hwriting]; exact if_pos hincoming
  · rw [if_neg hnot, if_pos hincoming]

/-- A victim that is EMPTY or clean fetches the tab at once, its old tab uncached (R23). -/
theorem claim_clean (s : State) {i : SlotId} (tab : Nat) (w : Waiter) (h : s.victimDirty i = false) : s.claim i tab w =
    ((s.uncache i).setCached tab (some i)).startFetch i tab [w] := by
  unfold State.claim
  rw [h]
  rfl

/-- The tab of a slot loses it, whatever the ports. -/
theorem uncache_taken (s : State) (i : SlotId) (ports : Vector LanePort 24) : ∃ directory,
    State.uncache { s with ports := ports } i = { s with ports := ports, directory := directory } ∧
    ∀ u, State.dir { s with directory := directory } u = if (s.slot i).tab = some u then { s.dir u with slot := none } else s.dir u := by
  obtain ⟨directory, h⟩ := uncache_frame { s with ports := ports } i
  refine ⟨directory, h, fun u => ?_⟩
  have hdir := uncache_dir { s with ports := ports } i u
  rw [h] at hdir
  exact hdir

theorem claim_dirty (s : State) {i : SlotId} (tab : Nat) (w : Waiter) (h : s.victimDirty i = true) : s.claim i tab w =
    (s.startWrite i (.tab tab) [w]).setCached tab (some i) := by
  unfold State.claim
  rw [h]
  rfl

theorem cacheRequest_claims {s : State} {tab : Nat} {i : SlotId} (hslot : (s.dir tab).slot = none) (hvictim : s.victim = some i) (w : Waiter) :
    s.cacheRequest tab w = s.claim i tab w := by
  unfold State.cacheRequest
  rw [hslot, hvictim]

theorem cacheRequest_noVictim {s : State} {tab : Nat} (hslot : (s.dir tab).slot = none) (hvictim : s.victim = none) (w : Waiter) :
    s.cacheRequest tab w = s.refuseWaiter .tabsBusy w := by
  unfold State.cacheRequest
  rw [hslot, hvictim]

/-! ### The victim (R22) -/

theorem allSlots_getElem (i : SlotId) : allSlots[i.val]'(by simp [allSlots]) = i := by simp [allSlots]

theorem victim_empty {s : State} {i : SlotId} (hempty : (s.slot i).state = .empty) (hfirst : ∀ j, j < i → (s.slot j).state ≠ .empty) :
    s.victim = some i := by
  have hfind : allSlots.find? (fun i => (s.slot i).state = .empty) = some i := by
    rw [List.find?_eq_some_iff_getElem]
    refine ⟨by simpa using hempty, i.val, by simp [allSlots], allSlots_getElem i, fun j hj => ?_⟩
    have := hfirst ⟨j, hj.trans i.isLt⟩ hj
    simpa [allSlots] using this
  unfold State.victim
  rw [hfind]
  rfl

theorem victim_ready {s : State} (hnone : ∀ i, (s.slot i).state ≠ .empty) :
    s.victim = s.recency.find? (fun i => (s.slot i).state = .ready && (s.slot i).waits.isEmpty) := by
  have hfind : allSlots.find? (fun i => (s.slot i).state = .empty) = none :=
    List.find?_eq_none.2 fun i _ => by simpa using hnone i
  unfold State.victim
  rw [hfind]
  rfl

theorem victimDirty_iff (s : State) (i : SlotId) : s.victimDirty i = true ↔ (s.slot i).state = .ready ∧ (s.slot i).dirty = true := by
  unfold State.victimDirty
  rw [Bool.and_eq_true, decide_eq_true_eq]

/-- Settles O60. -/
theorem waiterAtHeadExecutes : Obligations.WaiterAtHeadExecutes := by
  refine ⟨fun s p k tag body c tab request hasks => ?_, fun s p tag body rush lines hb ha hread => ?_, fun s => ⟨fun i => victim_empty,
      fun hnone => ⟨fun front i back hrecency hready hwaits hbefore => ?_, fun hbusy => ?_⟩, victimDirty_iff s⟩,
    fun s i w rest hready hwaits hengine hsplit => ?_, fun s i p tab page rest r k hready hwaits hengine hrole hrec hk => ?_⟩
  · intro w
    have hexec := exec_asksCache hasks
    have hrefuse : ∀ status, (afterTaking s p k tag).refuseWaiter status w =
        s.setPort p (repliedPort (s.port p) k tag status (requestDetail request).bytes) :=
      fun status => refuse_afterTaking s p k tag status (requestDetail request)
    refine ⟨fun i hjoins => ?_, fun i hslot hat hwriting hincoming => ?_, fun hslot hvictim => ?_, fun i hslot hvictim hclean => ?_,
      fun i hslot hvictim hdirty => ?_⟩
    · have hjoin := cacheRequest_joins (s := afterTaking s p k tag) hjoins w
      refine ⟨fun hroom => ?_, fun hfull => ?_⟩
      · rw [hexec, hjoin, State.joinWaits, if_pos (by exact hroom)]; rfl
      · rw [State.joinWaits, if_neg (by exact Nat.not_lt.2 hfull), hrefuse] at hjoin
        exact ⟨_, hexec, hjoin⟩
    · have hwrites : (afterTaking s p k tag).cacheRequest tab w = (afterTaking s p k tag).refuseWaiter .tabsBusy w := by
        unfold State.cacheRequest
        rw [show ((afterTaking s p k tag).dir tab).slot = some i from hslot]
        dsimp only
        rw [if_pos (by exact hat), State.atOwnSlot, show ((afterTaking s p k tag).slot i).state = .writing from hwriting]
        exact if_neg hincoming
      exact ⟨_, hexec, hwrites.trans (hrefuse _)⟩
    · exact ⟨_, hexec, (cacheRequest_noVictim (s := afterTaking s p k tag) hslot hvictim w).trans (hrefuse _)⟩
    · have hclaim := (cacheRequest_claims (s := afterTaking s p k tag) hslot hvictim w).trans (claim_clean _ tab w hclean)
      obtain ⟨directory, huncache, hdir⟩ := uncache_taken s i (afterTaking s p k tag).ports
      rw [show (afterTaking s p k tag).uncache i = _ from huncache] at hclaim
      obtain ⟨hself, hother⟩ := entryBecomes_of (s := { s with directory := directory }) (tab := tab)
        (t := (({ s with ports := (afterTaking s p k tag).ports, directory := directory } : State).setCached tab (some i)).startFetch i tab [w])
        (u := { s with directory := directory }) rfl fun _ _ => rfl
      refine ⟨_, hexec.trans (congrArg _ hclaim), slotBecomes_of (u := s) rfl rfl, ?_, fun u hu => (hother u hu).trans (hdir u), rfl,
        afterTaking_port s p k tag, fun q hq => afterTaking_port_other s hq k tag, by cases s; rfl⟩
      refine hself.trans ((congrArg (fun e : DirEntry => { e with slot := some i }) (hdir tab)).trans ?_)
      dsimp only
      split <;> rfl
    · have hclaim := (cacheRequest_claims (s := afterTaking s p k tag) hslot hvictim w).trans (claim_dirty _ tab w hdirty)
      refine ⟨_, hexec.trans (congrArg _ hclaim), slotBecomes_of (u := s) rfl rfl, entryBecomes_of (u := s) rfl fun _ _ => rfl, rfl,
        afterTaking_port s p k tag, fun q hq => afterTaking_port_other s hq k tag, by cases s; rfl⟩
  · have hexec := exec_of_admitted (k := .order) (tag := tag) rfl hb ha nofun
    have htake : ownerOf .order p body (afterTaking s p .order tag) =
        (afterTaking s p .order tag).cacheNewOrder { port := p, request := .order 0 rush lines } := by
      change takeOrder p body _ = _
      simp only [takeOrder, hread, if_true]
    have hrefuse : ∀ status, (afterTaking s p .order tag).refuseWaiter status { port := p, request := .order 0 rush lines } =
        s.setPort p (repliedPort (s.port p) .order tag status (Detail.bytes {})) :=
      fun status => refuse_afterTaking s p .order tag status {}
    unfold State.cacheNewOrder at htake
    refine ⟨fun hnone => ?_, fun hsome hvictim => ?_, fun i hsome hvictim hdirty => ?_⟩
    · rw [if_pos (by exact hnone), hrefuse] at htake
      exact ⟨_, hexec, htake⟩
    · rw [if_neg (by exact hsome), show (afterTaking s p .order tag).victim = none from hvictim] at htake
      exact ⟨_, hexec, htake.trans (hrefuse _)⟩
    · rw [if_neg (by exact hsome), show (afterTaking s p .order tag).victim = some i from hvictim] at htake
      dsimp only at htake
      rw [if_pos (by exact hdirty)] at htake
      refine ⟨_, hexec.trans (congrArg _ htake), slotBecomes_of (u := s) rfl rfl, rfl, afterTaking_port s p .order tag,
        fun q hq => afterTaking_port_other s hq .order tag, by cases s; rfl⟩
  · rw [victim_ready hnone, List.find?_eq_some_iff_append]
    refine ⟨by simp [hready, hwaits], front, back, hrecency, fun j hj => ?_⟩
    rcases hbefore j hj with h | h <;> simp [h]
  · rw [victim_ready hnone, List.find?_eq_none]
    intro j hj
    rcases hbusy j hj with h | h <;> simp [h]
  · exact congrArg _ (State.executeHead_runs s i hready hwaits hengine fun h => by rw [hsplit] at h; cases h)
  · have hrun := State.executeHead_runs s i hready hwaits hengine nofun
    generalize hu : ({ s.setSlot i { s.slot i with waits := rest } with recency := s.recency.filter (fun j => j ≠ i) ++ [i] } : State) = u at hrun
    have hslot : u.slot i = { s.slot i with waits := rest } := by rw [← hu]; exact State.slot_setSlot_self _ _ _
    have hperform : perform i p (.readTab tab page) u = u.setPort p ((s.port p).put (replyFrame k.kind k.tag .ok (readTabBytes (s.dir tab) r tab page))) := by
      change performReadTab i p tab page u = _
      have hjudge : u.judgeReadTab p tab = none := if_pos (by rw [← hu]; exact hrole)
      have hrecord : (u.slot i).record = some r := by rw [hslot]; exact hrec
      have hport : u.port p = s.port p := by rw [← hu]; rfl
      have hentry : u.dir tab = s.dir tab := by rw [← hu]; rfl
      simp only [performReadTab, hjudge, hrecord, hentry]
      rw [State.reply_of_request u p .ok _ (by rw [hport]; exact hk), hport]
      rfl
    refine ⟨_, congrArg Host.Outcome.next (hrun.trans hperform), ?_⟩
    rw [← hu]
    exact ⟨rfl, slotBecomes_of (u := s) rfl rfl, State.port_setPort_self _ _ _, fun q hq => State.port_setPort_other _ hq _, rfl⟩

end Sys2Proof.CacheRules
end

section
/-! PROOFS. Operations of the memory controller: starts, fetches, and those who wait (R25, R27, R29 to R33). O57. -/

namespace Sys2Proof.MemoryRules

-- One theorem after another: as many checks at once take a thread each.
set_option Elab.async false

open Sys2Proof Sys2Proof.Machine Sys2Proof.Statements Sys2Proof.Invariants Sys2Proof.Frames Sys2Proof.Office Sys2Proof.AtSlot

/-! ### Those who wait are answered (R28, R33, R35) -/

/-- Waiters are answered one after another, each at its own port. -/
theorem refuseWaiters_answered (status : Status) (ws : List Waiter) (s : State) :
    Answered s (ws.foldl (State.refuseWaiter status) s) ws status := by
  induction ws generalizing s with
  | nil => exact fun _ => ⟨nofun, fun _ _ => rfl⟩
  | cons w rest ih =>
    intro hnodup
    rw [List.map_cons, List.nodup_cons] at hnodup
    obtain ⟨hw, hrest⟩ := hnodup
    obtain ⟨hanswered, hothers⟩ := ih (State.refuseWaiter status s w) hrest
    have hne : ∀ q, q ≠ w.port → (State.refuseWaiter status s w).port q = s.port q := fun q hq => State.refuseWaiter_other s status w hq
    refine ⟨fun x hx k hk => ?_, fun q hq => ?_⟩
    · rw [List.foldl_cons]
      rcases List.mem_cons.1 hx with rfl | hx
      · rw [hothers x.port (.inl hw)]
        unfold State.refuseWaiter State.refuse
        rw [State.reply_of_request s x.port status _ hk]
        exact State.port_setPort_self _ _ _
      · have hxw : x.port ≠ w.port := fun e => hw (e ▸ List.mem_map_of_mem hx)
        rw [hanswered x hx k (by rw [hne _ hxw]; exact hk), hne _ hxw]
    · rw [List.foldl_cons]
      by_cases hqw : q = w.port
      · subst hqw
        have hnone : (s.port w.port).request = none := hq.resolve_left fun h => h List.mem_cons_self
        have hsame : State.refuseWaiter status s w = s := by
          unfold State.refuseWaiter State.refuse
          rcases s.reply_spec w.port status (requestDetail w.request).bytes with ⟨r, hr, -⟩ | ⟨-, e⟩
          · rw [hnone] at hr; cases hr
          · exact e
        rw [hothers w.port (.inl hw), hsame]
      · have hq' : q ∉ rest.map Waiter.port ∨ ((State.refuseWaiter status s w).port q).request = none := by
          rw [hne q hqw]
          exact hq.imp (fun h hin => h (List.mem_cons_of_mem _ hin)) id
        rw [hothers q hq', hne q hqw]

/-- A slot is emptied and those who waited there are answered. -/
theorem emptySlot_answered (s : State) (i : SlotId) (status : Status) : ∃ ports,
    s.emptySlot i status = { s.setSlot i CacheSlot.cleared with ports := ports } ∧
    Answered s { s with ports := ports } (s.slot i).waits status ∧ ((s.slot i).waits = [] → ports = s.ports) := by
  obtain ⟨ports, hframe⟩ := State.refuseWaiters_frame status (s.slot i).waits s
  have hanswered := refuseWaiters_answered status (s.slot i).waits s
  rw [hframe] at hanswered
  refine ⟨ports, ?_, hanswered, fun hnone => ?_⟩
  · unfold State.emptySlot State.refuseWaiters
    rw [hframe]
    rfl
  · rw [hnone] at hframe
    exact (congrArg State.ports hframe).symm

/-! ### A slot becomes READY (R25, R27) -/

/-- A slot becomes READY with its record, less a plan that an OPEN tab does not allow, and its head executes. -/
theorem becomeReady_eq {s : State} {i : SlotId} {tab : Nat} {r : TabRecord} (htab : (s.slot i).tab = some tab)
    (hrec : (s.slot i).record = some r) :
    s.becomeReady i = (s.setSlot i (readySlot s (s.slot i) tab r (s.slot i).dirty (s.slot i).waits)).executeHead i := by
  unfold State.becomeReady
  congr 1
  generalize hu : s.setSlot i { s.slot i with state := .ready, incoming := .none } = u
  have hslot : u.slot i = { s.slot i with state := .ready, incoming := .none } := by rw [← hu]; exact State.slot_setSlot_self _ _ _
  unfold State.comparePlan
  rw [show (u.slot i).tab = some tab by rw [hslot]; exact htab]
  dsimp only
  have hdir : u.dir tab = s.dir tab := by rw [← hu]; rfl
  rw [hdir]
  unfold readySlot
  by_cases hopen : (s.dir tab).state = .opened
  · rw [if_pos hopen, if_pos hopen, State.dropPlan_eq u i (r := r) (by rw [hslot]; exact hrec), hslot, ← hu, State.setSlot_setSlot]
    simp [hopen]
  · rw [if_neg hopen, if_neg hopen, ← hu]
    simp [hopen, hrec]

/-- Nobody waits at a slot, or its head is kept by the split engine: nothing executes. -/
theorem executeHead_nobody {s : State} {i : SlotId} (h : (s.slot i).waits = []) : s.executeHead i = s := by
  rcases State.executeHead_cases s i with ⟨-, e⟩ | ⟨w, rest, -, hw, -⟩
  · exact e
  · rw [h] at hw; cases hw

theorem executeHead_kept {s : State} {i : SlotId} {w : Waiter} {rest : List Waiter} (h : (s.slot i).waits = w :: rest)
    (hkept : w.port ∈ s.engineWait) : s.executeHead i = s := by
  rcases State.executeHead_cases s i with ⟨-, e⟩ | ⟨x, tail, -, hx, hout, -⟩
  · exact e
  · rw [h] at hx; cases hx; exact absurd hkept hout

/-- What becomes of a slot that is READY now with these waiters: nobody executes, the head is kept, or it executes. -/
theorem readyHead (s : State) (i : SlotId) {x : CacheSlot} (hready : x.state = .ready) :
    (x.waits = [] → (s.setSlot i x).executeHead i = s.setSlot i x) ∧
    ∀ w rest, x.waits = w :: rest →
      (w.port ∉ s.engineWait → (w.request.isSplit = true → s.check = .passed) → (s.setSlot i x).executeHead i =
        perform i w.port w.request { s.setSlot i { x with waits := rest } with recency := touched s i }) ∧
      (w.port ∈ s.engineWait → (s.setSlot i x).executeHead i = s.setSlot i x) := by
  have hslot : (s.setSlot i x).slot i = x := State.slot_setSlot_self _ _ _
  refine ⟨fun hnone => executeHead_nobody (by rw [hslot]; exact hnone), fun w rest hw => ⟨fun hout hcheck => ?_, fun hin => ?_⟩⟩
  · rw [State.executeHead_runs (s.setSlot i x) i (by rw [hslot]; exact hready) (by rw [hslot]; exact hw) hout hcheck, hslot,
      State.setSlot_setSlot]
    rfl
  · exact executeHead_kept (by rw [hslot]; exact hw) hin

/-! ### Fetches (R31 to R33) -/

theorem exec_fetchComplete {s : State} {i : SlotId} {deadline tab : Nat} (h : s.memRunning = some { op := .fetch i, deadline := deadline })
    (htab : (s.slot i).tab = some tab) (read : MemRead) :
    exec (.fetchComplete read) s = .next (if s.now ≤ deadline then State.finishFetch { s with memRunning := none } i tab read else s) := by
  change Host.Outcome.next (match s.memRunning with
    | some { op := .fetch i, deadline := d } =>
      if s.inTime d then s.freeController.finishFetch i (orZero (s.slot i).tab) read else s
    | _ => s) = _
  rw [h]
  simp only [State.inTime_iff, htab]
  rfl

theorem passes_none {tab : Nat} {read : Option StoredRecord}
    (h : ∀ c, read = some c → c.check ≠ recordCheck c.record ∨ c.record.tab ≠ tab) : passes tab read = none := by
  cases read with
  | none => rfl
  | some c => exact if_neg fun hc => (h c rfl).elim (fun hne => hne hc.1) fun hne => hne hc.2

/-- A fetch whose record passes fills the slot, which becomes READY. -/
theorem finishFetch_passes {s : State} {i : SlotId} {tab : Nat} {read : MemRead} {c : StoredRecord} (htab : (s.slot i).tab = some tab)
    (hread : s.readMemory tab read = some c) (hcheck : c.check = recordCheck c.record) (hnumber : c.record.tab = tab) :
    s.finishFetch i tab read = (s.setSlot i (readySlot s (s.slot i) tab c.record false (s.slot i).waits)).executeHead i := by
  have hpass : passes tab (s.readMemory tab read) = some c.record := by rw [hread]; exact if_pos ⟨hcheck, hnumber⟩
  unfold State.finishFetch
  rw [hpass]
  dsimp only
  generalize hu : s.setSlot i { s.slot i with record := some c.record, dirty := false } = u
  have hslot : u.slot i = { s.slot i with record := some c.record, dirty := false } := by rw [← hu]; exact State.slot_setSlot_self _ _ _
  rw [becomeReady_eq (tab := tab) (r := c.record) (by rw [hslot]; exact htab) (by rw [hslot]), hslot, ← hu, State.setSlot_setSlot]
  rfl

/-- The notice that ends an operation, whatever else has changed but notices and mask. -/
theorem raise_form {s w : State} (n : Notice) (hmask : w.mask = s.mask) (hnotices : w.notices = s.notices) (hdropped : w.dropped = s.dropped) :
    w.raise n = { w with notices := (s.raise n).notices, dropped := (s.raise n).dropped } := by
  obtain ⟨h1, h2⟩ := raise_congr (u := w) (s := s) n hmask hnotices hdropped
  rw [State.raise_frame, h1, h2]

/-- A tab that becomes DAMAGED at its slot: what R9 and R32 leave, and the ports at which the waiters are answered. -/
theorem finishFetch_damages {s : State} {i : SlotId} {tab : Nat} {read : MemRead} (hfails : passes tab (s.readMemory tab read) = none) :
    ∃ directory holds closedList ports, s.finishFetch i tab read =
      { s.setSlot i CacheSlot.cleared with
        directory := directory, holds := holds, closedList := closedList, ports := ports,
        notices := (s.raise (.tab tab .damaged)).notices, dropped := (s.raise (.tab tab .damaged)).dropped } ∧
      EntryBecomes s { s with directory := directory } tab { s.dir tab with state := .damaged, holder := none, slot := none } ∧
      (∀ q, (s.dir tab).holder = some q → HoldBecomes s { s with holds := holds } q none) ∧
      ((s.dir tab).holder = none → holds = s.holds) ∧ closedList = s.closedList.filter (fun u => u ≠ tab) ∧
      Answered s { s with ports := ports } (s.slot i).waits .tabDamaged ∧ ((s.slot i).waits = [] → ports = s.ports) := by
  rw [finishFetch_fails s i tab hfails]
  obtain ⟨hentry, hothers, hheld, hfree, hclosed, hrest⟩ := State.damageTab_spec s tab
  generalize s.damageTab tab = v at hentry hothers hheld hfree hclosed hrest ⊢
  have hform : v = { s with directory := v.directory, holds := v.holds, closedList := v.closedList } :=
    congrArg (fun w : State => { w with directory := v.directory, holds := v.holds, closedList := v.closedList }) hrest
  obtain ⟨ports, hempty, hanswered, hsame⟩ := emptySlot_answered v i .tabDamaged
  rw [hempty]
  refine ⟨v.directory, v.holds, v.closedList, ports, ?_, ⟨hentry, hothers⟩, fun q hq => hheld q hq, hfree, hclosed, ?_, ?_⟩
  · rw [hform]
    exact raise_form (s := s) _ rfl rfl rfl
  · rw [hform] at hanswered
    exact hanswered
  · rw [hform] at hsame
    exact hsame

/-- An abandoned fetch: the tab uncached, the slot EMPTY, and those who waited answered. -/
theorem abandonFetch_eq (s : State) (i : SlotId) (tab : Nat) : ∃ ports, s.abandonFetch i tab =
      { (s.setSlot i CacheSlot.cleared).setDir tab { s.dir tab with slot := none } with
        ports := ports, notices := (s.raise (.tab tab .fetchAbandoned)).notices,
        dropped := (s.raise (.tab tab .fetchAbandoned)).dropped } ∧
      Answered s { s with ports := ports } (s.slot i).waits .tabMemoryFault ∧ ((s.slot i).waits = [] → ports = s.ports) := by
  obtain ⟨ports, hempty, hanswered, hsame⟩ := emptySlot_answered (s.setCached tab none) i .tabMemoryFault
  refine ⟨ports, ?_, hanswered, hsame⟩
  unfold State.abandonFetch
  rw [hempty]
  exact raise_form (s := s) _ rfl rfl rfl

/-- Settles O57. -/
theorem fetchFillsOrEmptiesSlot : Obligations.FetchFillsOrEmptiesSlot := by
  refine ⟨fun tab c r => ?_, fun s op rest hfree hqueue => ?_, fun s t hfree hqueue haudit => ?_,
    fun s i deadline tab read hrunning htab hin => ⟨fun c hread hcheck hnumber => ?_, fun hfails => ?_⟩,
    fun s i deadline read hrunning hlate => ?_, fun s i deadline tab hrunning htab => ?_⟩
  · rw [passes_eq_some_iff]
    constructor
    · rintro ⟨c', hc, rfl, hcheck, htab⟩
      cases hc
      exact ⟨rfl, htab, hcheck⟩
    · rintro ⟨rfl, htab, hcheck⟩
      exact ⟨c, rfl, rfl, hcheck, htab⟩
  · change Host.Outcome.next s.startOperation = _
    unfold State.startOperation
    rw [hfree, hqueue]
    rfl
  · change Host.Outcome.next s.startOperation = _
    unfold State.startOperation
    rw [hfree, hqueue, haudit]
    rfl
  · have hexec := exec_fetchComplete hrunning htab read
    rw [if_pos hin, finishFetch_passes (s := { s with memRunning := none }) htab hread hcheck hnumber] at hexec
    obtain ⟨hnobody, hhead⟩ := readyHead { s with memRunning := none } i
      (x := readySlot s (s.slot i) tab c.record false (s.slot i).waits) rfl
    refine ⟨fun hnone => ?_, fun w rest hw => ?_⟩
    · have hrun := hexec.trans (congrArg Host.Outcome.next (hnobody hnone))
      rw [hnone] at hrun
      exact ⟨_, hrun, rfl, slotBecomes_of (u := s) rfl rfl, rfl⟩
    · obtain ⟨hruns, hkept⟩ := hhead w rest hw
      refine ⟨fun hout hsplit => hexec.trans (congrArg Host.Outcome.next (hruns hout hsplit)), fun hengine => ?_⟩
      have hrun := hexec.trans (congrArg Host.Outcome.next (hkept hengine))
      rw [hw] at hrun
      exact hrun
  · have hexec := exec_fetchComplete hrunning htab read
    rw [if_pos hin] at hexec
    obtain ⟨directory, holds, closedList, ports, hrun, hentry, hheld, hfree, hclosed, hanswered, hsame⟩ :=
      finishFetch_damages (s := { s with memRunning := none }) (i := i) (passes_none hfails)
    obtain ⟨hnotices, hdropped⟩ := raise_congr (u := { s with memRunning := none }) (s := s) (.tab tab .damaged) rfl rfl rfl
    rw [hnotices, hdropped] at hrun
    exact ⟨_, hexec.trans (congrArg Host.Outcome.next hrun), rfl, slotBecomes_of (u := s) rfl rfl, hentry, hheld, hfree, hclosed, rfl, rfl,
      hanswered, hsame, rfl, rfl, rfl⟩
  · change Host.Outcome.next (match s.memRunning with
      | some { op := .fetch i, deadline := d } =>
        if s.inTime d then s.freeController.finishFetch i (orZero (s.slot i).tab) read else s
      | _ => s) = _
    rw [hrunning]
    simp only [State.inTime_iff, if_neg (Nat.not_le.2 hlate)]
  · have hexec : exec .fetchAbandoned s = .next (State.abandonFetch { s with memRunning := none, now := max s.now deadline } i tab) := by
      change Host.Outcome.next (match s.memRunning with
        | some { op := .fetch i, deadline := d } => (s.freeController.reach d).abandonFetch i (orZero (s.slot i).tab)
        | _ => s) = _
      rw [hrunning]
      simp only [htab]
      rfl
    obtain ⟨ports, hrun, hanswered, hsame⟩ := abandonFetch_eq { s with memRunning := none, now := max s.now deadline } i tab
    obtain ⟨hnotices, hdropped⟩ := raise_congr (u := { s with memRunning := none, now := max s.now deadline }) (s := s)
      (.tab tab .fetchAbandoned) rfl rfl rfl
    rw [hnotices, hdropped] at hrun
    exact ⟨_, hexec.trans (congrArg Host.Outcome.next hrun), rfl, rfl, slotBecomes_of (u := s) rfl rfl,
      entryBecomes_of (u := s) rfl fun _ _ => rfl, rfl, rfl, hanswered, hsame, rfl⟩

end Sys2Proof.MemoryRules
end

section
/-! PROOFS. Write-backs: completed, abandoned, and counted for the FLUSH (R30, R31, R34, R35, R37). O58. -/

namespace Sys2Proof.MemoryRules

-- One theorem after another: as many checks at once take a thread each.
set_option Elab.async false

open Sys2Proof Sys2Proof.Machine Sys2Proof.Statements Sys2Proof.Invariants Sys2Proof.Frames Sys2Proof.Office Sys2Proof.AtSlot
open Sys2Proof.OrderRules

/-! ### The FLUSH counts its write-backs (R37) -/

/-- The FLUSH when one of its write-backs has ended. -/
def countedFlush (f : Flush) (i : SlotId) (fault : Option Nat) : Flush where
  remaining := f.remaining.erase i
  written := if fault = none then f.written + 1 else f.written
  firstFault := f.firstFault.or fault

theorem countFlush_eq {s : State} {f : Flush} {i : SlotId} (hflush : s.flush = some f) (hin : i ∈ f.remaining) (fault : Option Nat) :
    s.countFlush i fault =
      if f.remaining.erase i = [] then State.flushReply { s with flush := none } (countedFlush f i fault)
      else { s with flush := some (countedFlush f i fault) } := by
  have hwritten : (if fault.isNone = true then f.written + 1 else f.written) = if fault = none then f.written + 1 else f.written := by
    simp only [Option.isNone_iff_eq_none]
  unfold State.countFlush
  rw [hflush]
  dsimp only
  rw [if_pos hin, hwritten]
  rfl

theorem reply_of_slot {s : State} {p : Port} {k : SlotRequest} (hk : (s.port p).request = some k) (status : Status) (fields : List Byte) :
    s.reply p status fields = withReply s p k.kind k.tag status fields := s.reply_of_request p status fields hk

/-! ### A write-back that completes (R31, R34) -/

theorem exec_writeBackComplete {s : State} {i : SlotId} {deadline : Nat} (h : s.memRunning = some { op := .writeBack i, deadline := deadline }) :
    exec .writeBackComplete s = .next (if s.now ≤ deadline then State.finishWrite { s with memRunning := none } i else s) := by
  change Host.Outcome.next (match s.memRunning with
    | some { op := .writeBack i, deadline := d } => if s.inTime d then s.freeController.finishWrite i else s
    | _ => s) = _
  rw [h]
  simp only [State.inTime_iff]
  rfl

/-- A slot's record stands in tab memory, and the slot is clean. -/
theorem recordWritten_eq {s : State} {i : SlotId} {tab : Nat} {r : TabRecord} (htab : (s.slot i).tab = some tab)
    (hrec : (s.slot i).record = some r) :
    s.recordWritten i = (s.store tab { record := r, check := recordCheck r }).setSlot i { s.slot i with dirty := false } := by
  unfold State.recordWritten
  rw [htab, hrec]
  rfl

theorem uncache_eq {s : State} {i : SlotId} {tab : Nat} (htab : (s.slot i).tab = some tab) :
    s.uncache i = s.setDir tab { s.dir tab with slot := none } := by
  unfold State.uncache
  rw [htab]
  rfl

/-- A slot that was clean or dirty becomes READY with its record, dirty as it is said to be. -/
theorem becomeReady_from {s v : State} {i : SlotId} {tab : Nat} {r : TabRecord} {x : CacheSlot} {dirty : Bool} {waits : List Waiter}
    (hv : v.slot i = { x with dirty := dirty, waits := waits }) (htab : x.tab = some tab) (hrec : x.record = some r)
    (hdir : v.dir tab = s.dir tab) :
    v.becomeReady i = (v.setSlot i (readySlot s x tab r dirty waits)).executeHead i := by
  rw [becomeReady_eq (tab := tab) (r := r) (by rw [hv]; exact htab) (by rw [hv]; exact hrec), hv]
  unfold readySlot
  rw [hdir]

/-! ### A write-back that is abandoned (R35) -/

theorem exec_writeBackAbandoned {s : State} {i : SlotId} {deadline : Nat} (h : s.memRunning = some { op := .writeBack i, deadline := deadline })
    (left : Option StoredRecord) :
    exec (.writeBackAbandoned left) s =
      .next (State.abandonWrite { s with memRunning := none, now := max s.now deadline } i left) := by
  change Host.Outcome.next (match s.memRunning with
    | some { op := .writeBack i, deadline := d } => (s.freeController.reach d).abandonWrite i left
    | _ => s) = _
  rw [h]
  rfl

theorem leaveMemory_eq {s : State} {i : SlotId} {tab : Nat} (htab : (s.slot i).tab = some tab) (left : Option StoredRecord) :
    s.leaveMemory i left = leftBehind s tab left := by
  unfold State.leaveMemory
  rw [htab]
  cases left <;> rfl

/-- What an abandoned write leaves in tab memory is tab memory's alone. -/
theorem leftBehind_frame (s : State) (tab : Nat) (left : Option StoredRecord) :
    leftBehind s tab left = { s with tabMemory := (leftBehind s tab left).tabMemory } := by
  cases left <;> rfl

/-- A slot that keeps its tab and record becomes READY, and all who waited there are answered. -/
theorem keptSlot_answered {s : State} {i : SlotId} {tab : Nat} {r : TabRecord} (htab : (s.slot i).tab = some tab)
    (hrec : (s.slot i).record = some r) (status : Status) : ∃ ports,
    ((s.refuseWaiters i status).setSlot i { (s.refuseWaiters i status).slot i with waits := [] }).becomeReady i =
      { s.setSlot i (readySlot s (s.slot i) tab r (s.slot i).dirty []) with ports := ports } ∧
    Answered s { s with ports := ports } (s.slot i).waits status := by
  obtain ⟨ports, hframe⟩ := State.refuseWaiters_frame status (s.slot i).waits s
  have hanswered := refuseWaiters_answered status (s.slot i).waits s
  rw [hframe] at hanswered
  refine ⟨ports, ?_, hanswered⟩
  have hrefused : s.refuseWaiters i status = { s with ports := ports } := hframe
  rw [hrefused]
  generalize hu : State.setSlot { s with ports := ports } i { State.slot { s with ports := ports } i with waits := [] } = u
  have hslot : u.slot i = { s.slot i with waits := [] } := by rw [← hu]; exact State.slot_setSlot_self _ _ _
  rw [becomeReady_eq (tab := tab) (r := r) (by rw [hslot]; exact htab) (by rw [hslot]; exact hrec), hslot,
    (readyHead u i (x := readySlot u { s.slot i with waits := [] } tab r (s.slot i).dirty []) rfl).1 rfl, ← hu, State.setSlot_setSlot]
  rfl

/-- Settles O58. -/
theorem writeBackStoresRecord : Obligations.WriteBackStoresRecord := by
  refine ⟨fun s i deadline tab r hrunning htab hrec => ⟨fun hin => ?_, fun hlate => ?_⟩,
    fun s i deadline tab r left hrunning htab hrec hdirty => ?_, fun s f i fault hflush hin => ?_⟩
  · intro v
    have hexec := exec_writeBackComplete hrunning
    rw [if_pos hin] at hexec
    have hwritten : State.recordWritten { s with memRunning := none } i = v.setSlot i { s.slot i with dirty := false } :=
      recordWritten_eq (s := { s with memRunning := none }) htab hrec
    have hslot : (v.setSlot i { s.slot i with dirty := false }).slot i = { s.slot i with dirty := false } := State.slot_setSlot_self _ _ _
    have huncache : (v.setSlot i { s.slot i with dirty := false }).uncache i =
        (v.setDir tab { s.dir tab with slot := none }).setSlot i { s.slot i with dirty := false } :=
      uncache_eq (by rw [hslot]; exact htab)
    refine ⟨tableFind_tablePut_self _ _ _, fun hnumber => ?_, fun u hu => tableFind_tablePut_other hu _ _, fun u hincoming hu => ?_,
      fun hincoming => ?_, fun f hincoming hflush hf => ?_⟩
    · have hread : v.readMemory tab .asWritten = some { record := r, check := recordCheck r } := tableFind_tablePut_self _ _ _
      rw [hread]
      exact if_pos ⟨rfl, hnumber⟩
    · have hrun : State.finishWrite { s with memRunning := none } i =
          ((v.setDir tab { s.dir tab with slot := none }).setSlot i { s.slot i with dirty := false }).startFetch i u (s.slot i).waits := by
        unfold State.finishWrite
        rw [show (State.slot { s with memRunning := none } i).incoming = .tab u from hincoming, hwritten]
        dsimp only
        rw [huncache]
        rfl
      unfold State.startFetch at hrun
      rw [State.setSlot_setSlot] at hrun
      exact ⟨_, hexec.trans (congrArg Host.Outcome.next hrun), rfl, rfl, slotBecomes_of (u := s) rfl rfl,
        entryBecomes_of (u := s) rfl fun _ _ => rfl, rfl, by cases s; rfl⟩
    · intro cleared
      have hrun : State.finishWrite { s with memRunning := none } i =
          ((v.setDir tab { s.dir tab with slot := none }).setSlot i { s.slot i with dirty := false }).openForNew i := by
        unfold State.finishWrite
        rw [show (State.slot { s with memRunning := none } i).incoming = .new from hincoming, hwritten]
        dsimp only
        rw [huncache]
      have hwaits : (((v.setDir tab { s.dir tab with slot := none }).setSlot i { s.slot i with dirty := false }).slot i).waits =
          (s.slot i).waits := by rw [State.slot_setSlot_self]
      unfold State.openForNew at hrun
      rw [hwaits] at hrun
      refine ⟨fun hnone => ?_, fun w hw => ?_⟩
      · rw [hnone] at hrun
        dsimp only at hrun
        rw [State.setSlot_setSlot] at hrun
        exact hexec.trans (congrArg Host.Outcome.next hrun)
      · rw [hw] at hrun
        dsimp only at hrun
        unfold State.runNewOrder at hrun
        rw [State.setSlot_setSlot] at hrun
        exact hexec.trans (congrArg Host.Outcome.next hrun)
    · intro clean
      have hready : (v.setSlot i { s.slot i with dirty := false }).becomeReady i = (v.setSlot i (clean (s.slot i).waits)).executeHead i := by
        rw [becomeReady_from (s := s) (x := s.slot i) (dirty := false) (waits := (s.slot i).waits) hslot htab hrec rfl, State.setSlot_setSlot]
      have hrun : State.finishWrite { s with memRunning := none } i = ((v.setSlot i (clean (s.slot i).waits)).executeHead i).countFlush i none := by
        unfold State.finishWrite
        rw [show (State.slot { s with memRunning := none } i).incoming = .none from hincoming, hwritten, ← hready]
      rw [hrun] at hexec
      obtain ⟨hnobody, hhead⟩ := readyHead v i (x := clean (s.slot i).waits) rfl
      refine ⟨fun hnone => ?_, fun w rest hw => ⟨fun hout hsplit => ?_, fun hengine => ?_⟩⟩
      · rw [hexec, hnobody hnone, hnone]
      · rw [hexec, (hhead w rest hw).1 hout hsplit]; rfl
      · rw [hexec, (hhead w rest hw).2 hengine, hw]
  · rw [exec_writeBackComplete hrunning, if_neg (Nat.not_le.2 hlate)]
  · intro v kept
    have hexec := exec_writeBackAbandoned hrunning left
    generalize hm : State.tabMemory v = memory
    have hv : v = { s with memRunning := none, now := max s.now deadline, tabMemory := memory } := by
      rw [← hm]
      change State.mk .. = _
      rw [leftBehind_frame s tab left]
    have hleft : State.leaveMemory { s with memRunning := none, now := max s.now deadline } i left = v := by
      rw [leaveMemory_eq (s := { s with memRunning := none, now := max s.now deadline }) (tab := tab) htab left]
      cases left <;> rfl
    have hnumber : orZero (State.slot { s with memRunning := none, now := max s.now deadline } i).tab = tab := by
      rw [show (State.slot { s with memRunning := none, now := max s.now deadline } i).tab = some tab from htab]
      rfl
    have hsame : left = none → memory = s.tabMemory := by
      rintro rfl
      exact hm.symm
    have hraise : v.raise (.tab tab .writeAbandoned) =
        { v with
          notices := (s.raise (.tab tab .writeAbandoned)).notices, dropped := (s.raise (.tab tab .writeAbandoned)).dropped } := by
      rw [hv]
      exact raise_form (s := s) _ rfl rfl rfl
    refine ⟨fun u hincoming hu => ?_, fun hincoming => ?_, fun f hincoming hflush hf => ?_⟩
    · generalize hw : (v.raise (.tab tab .writeAbandoned)).setCached u none = w
      have hslot : w.slot i = s.slot i := by rw [← hw, hraise, hv]; rfl
      have hdir : w.dir tab = s.dir tab := by
        rw [← hw, hraise, hv]
        exact State.dir_setDir_other _ (Ne.symm hu) _
      obtain ⟨ports, hrun, hanswered⟩ := keptSlot_answered (s := w) (i := i) (by rw [hslot]; exact htab) (by rw [hslot]; exact hrec)
        .tabMemoryFault
      have hkept : readySlot w (s.slot i) tab r true [] = kept [] := by simp only [kept, readySlot, hdir]
      have habandon : State.abandonWrite { s with memRunning := none, now := max s.now deadline } i left =
          { w.setSlot i (kept []) with ports := ports } := by
        unfold State.abandonWrite
        rw [show (State.slot { s with memRunning := none, now := max s.now deadline } i).incoming = .tab u from hincoming, hleft, hnumber]
        dsimp only
        rw [hw, hrun, hslot, hdirty, hkept]
      rw [hslot] at hanswered
      rw [← hw, hraise, hv] at habandon hanswered
      exact ⟨_, hexec.trans (congrArg Host.Outcome.next habandon), rfl, rfl, rfl, hsame, slotBecomes_of (u := s) rfl rfl,
        entryBecomes_of (u := s) rfl fun _ _ => rfl, rfl, rfl, hanswered, rfl⟩
    · generalize hw : v.raise (.tab tab .writeAbandoned) = w
      have hslot : w.slot i = s.slot i := by rw [← hw, hraise, hv]; rfl
      have hdir : w.dir tab = s.dir tab := by rw [← hw, hraise, hv]; rfl
      obtain ⟨ports, hrun, hanswered⟩ := keptSlot_answered (s := w) (i := i) (by rw [hslot]; exact htab) (by rw [hslot]; exact hrec)
        .tabMemoryFault
      have hkept : readySlot w (s.slot i) tab r true [] = kept [] := by simp only [kept, readySlot, hdir]
      have habandon : State.abandonWrite { s with memRunning := none, now := max s.now deadline } i left =
          { w.setSlot i (kept []) with ports := ports } := by
        unfold State.abandonWrite
        rw [show (State.slot { s with memRunning := none, now := max s.now deadline } i).incoming = .new from hincoming, hleft, hnumber]
        dsimp only
        rw [hw, hrun, hslot, hdirty, hkept]
      rw [hslot] at hanswered
      rw [← hw, hraise, hv] at habandon hanswered
      exact ⟨_, hexec.trans (congrArg Host.Outcome.next habandon), rfl, rfl, rfl, slotBecomes_of (u := s) rfl rfl,
        rfl, rfl, hanswered, rfl⟩
    · intro noted
      have hslot : noted.slot i = s.slot i := by
        change (v.raise _).slot i = _
        rw [hraise, hv]; rfl
      have hsame : noted.dir tab = s.dir tab ∧ noted.engineWait = s.engineWait ∧ noted.check = s.check ∧ touched noted i = touched s i := by
        change (v.raise _).dir tab = _ ∧ (v.raise _).engineWait = _ ∧ (v.raise _).check = _ ∧ touched (v.raise _) i = _
        rw [hraise, hv]
        exact ⟨rfl, rfl, rfl, rfl⟩
      obtain ⟨hdir, hengines, hchecks, htouched⟩ := hsame
      have habandon : State.abandonWrite { s with memRunning := none, now := max s.now deadline } i left =
          ((noted.setSlot i (kept (s.slot i).waits)).executeHead i).countFlush i (some tab) := by
        unfold State.abandonWrite
        rw [show (State.slot { s with memRunning := none, now := max s.now deadline } i).incoming = .none from hincoming, hleft, hnumber]
        dsimp only
        rw [becomeReady_from (s := s) (v := noted) (x := s.slot i) (dirty := true) (waits := (s.slot i).waits)
          (by rw [hslot, ← hdirty]) htab hrec hdir]
      rw [habandon] at hexec
      obtain ⟨hnobody, hhead⟩ := readyHead noted i (x := kept (s.slot i).waits) rfl
      refine ⟨fun hnone => ?_, fun x rest hx => ⟨fun hout hsplit => ?_, fun hengine => ?_⟩⟩
      · rw [hexec, hnobody hnone, hnone]
      · rw [hexec, (hhead x rest hx).1 (by rw [hengines]; exact hout) (by rw [hchecks]; exact hsplit), htouched]; rfl
      · rw [hexec, (hhead x rest hx).2 (by rw [hengines]; exact hengine), hx]
  · intro written first
    have hcount := countFlush_eq hflush hin fault
    refine ⟨fun hmore => hcount.trans (if_neg hmore), fun k hlast hk => ⟨fun hgood => ?_, fun u hbad => ?_⟩⟩
    · rw [hcount, if_pos hlast]
      unfold State.flushReply countedFlush
      rw [show f.firstFault.or fault = none from hgood]
      exact reply_of_slot (s := { s with flush := none }) hk .ok _
    · rw [hcount, if_pos hlast]
      unfold State.flushReply countedFlush
      rw [show f.firstFault.or fault = some u from hbad]
      exact reply_of_slot (s := { s with flush := none }) hk .tabMemoryFault _

end Sys2Proof.MemoryRules
end

section
/-! PROOFS. How the directory, its lists, the hold table, the kitchen's live tickets and the cache agree, part by part, and what each part looks
at. For the second half of O3. -/

namespace Sys2Proof.TabAgreement

-- One theorem after another: as many checks at once take a thread each.
set_option Elab.async false

open Sys2Proof Sys2Proof.Machine Sys2Proof.Statements Sys2Proof.Invariants Sys2Proof.AtSlot

variable {s t : State}

/-! ### The parts -/

/-- The free list, the closed list and the formatted entries (R2, R4, R5, R8). -/
structure ListsAgree (s : State) : Prop where
  freeOnce   : s.freeList.Nodup
  free       : ∀ t, t ∈ s.freeList ↔ isTab t = true ∧ (s.dir t).state = .free
  closedOnce : s.closedList.Nodup
  closed     : ∀ t, t ∈ s.closedList ↔ (s.dir t).state = .closed
  formatted  : ∀ t, (s.dir t).state = .free ∨ isTab t = false ∨ s.phase = .starting → s.dir t = DirEntry.formatted

/-- The directory's holders and the hold table (R101). -/
structure HoldsAgree (s : State) : Prop where
  holder : ∀ t p, (s.dir t).holder = some p → (s.dir t).state = .tendering ∧ (s.hold p).map Hold.tab = some t
  hold   : ∀ p h, s.hold p = some h → (s.dir h.tab).holder = some p

/-- The number of live tickets of a tab. -/
def liveOf (s : State) (tab : Nat) : Nat := s.liveKeys.countP fun k => k.2 = tab

theorem liveOf_eq (s : State) (tab : Nat) : liveOf s tab = (s.liveTickets.filter (fun x => x.tab = tab)).length := by
  unfold liveOf State.liveKeys
  rw [List.countP_map, List.countP_eq_length_filter]
  rfl

/-- The live-ticket counts and the tabs of the recall lists (R8, R10, R80). -/
structure LiveAgree (s : State) : Prop where
  live    : ∀ t, (s.dir t).live = liveOf s t
  recalls : ∀ p, ∀ e ∈ (s.station p).recalls, e.gone = false → (s.dir e.ticket.tab).state ≠ .free

/-- The directory's slot fields, the slots, and the operations at the memory controller (R9, R19, R21, R28, R29). -/
structure CacheAgree (s : State) : Prop where
  slot       : ∀ t i, (s.dir t).slot = some i ↔ (s.slot i).tab = some t ∨ (s.slot i).incoming = .tab t
  damaged    : ∀ t, (s.dir t).state = .damaged → (s.dir t).slot = none
  slots      : ∀ i : SlotId, SlotSound (s.slot i)
  operations : OperationsAgree s

/-- The tables agree, and the kitchen's lists are in their capacities, the live tickets apart. -/
structure Sound (s : State) : Prop where
  kitchen : KitchenFits s
  lists   : ListsAgree s
  holds   : HoldsAgree s
  live    : LiveAgree s
  cache   : CacheAgree s

theorem sound_iff (s : State) : Sound s ↔ KitchenFits s ∧ TablesAgree s := by
  constructor
  · rintro ⟨hkitchen, hlists, hholds, hlive, hcache⟩
    exact ⟨hkitchen, ⟨hlists.freeOnce, hlists.free⟩, ⟨hlists.closedOnce, hlists.closed⟩, hlists.formatted, hholds.holder, hholds.hold,
      fun u => (hlive.live u).trans (liveOf_eq s u), hlive.recalls, hcache.slot, hcache.damaged, hcache.slots, hcache.operations⟩
  · rintro ⟨hkitchen, h⟩
    exact ⟨hkitchen, ⟨h.freeList.1, h.freeList.2, h.closedList.1, h.closedList.2, h.free⟩, ⟨h.holder, h.hold⟩,
      ⟨fun u => (h.live u).trans (liveOf_eq s u).symm, h.recalls⟩, ⟨h.slot, h.damaged, h.slots, h.operations⟩⟩

/-! ### What each part looks at -/

theorem ListsAgree.same (h : ListsAgree s) (hdir : ∀ u, t.dir u = s.dir u) (hphase : t.phase = s.phase) (hfree : t.freeList = s.freeList)
    (hclosed : t.closedList = s.closedList) : ListsAgree t := by
  refine ⟨hfree ▸ h.freeOnce, fun u => ?_, hclosed ▸ h.closedOnce, fun u => ?_, fun u => ?_⟩
  · rw [hfree, hdir]; exact h.free u
  · rw [hclosed, hdir]; exact h.closed u
  · rw [hphase, hdir]; exact h.formatted u

theorem HoldsAgree.same (h : HoldsAgree s) (hdir : ∀ u, t.dir u = s.dir u) (hhold : ∀ p, t.hold p = s.hold p) : HoldsAgree t := by
  refine ⟨fun u p => ?_, fun p x => ?_⟩
  · rw [hdir, hhold]; exact h.holder u p
  · rw [hdir, hhold]; exact h.hold p x

theorem LiveAgree.same (h : LiveAgree s) (hdir : ∀ u, t.dir u = s.dir u) (hkeys : t.liveKeys.Perm s.liveKeys)
    (hrecalls : ∀ p, ∀ e ∈ (t.station p).recalls, e ∈ (s.station p).recalls) : LiveAgree t := by
  refine ⟨fun u => ?_, fun p e he hgone => ?_⟩
  · rw [hdir, h.live]; exact (hkeys.countP_eq _).symm
  · rw [hdir]; exact h.recalls p e (hrecalls p e he) hgone

theorem operationsAgree_same (h : OperationsAgree s) (hslot : ∀ i, (t.slot i).state = (s.slot i).state) (hqueue : t.memQueue = s.memQueue)
    (hrunning : t.memRunning = s.memRunning) : OperationsAgree t := by
  have hops : memoryOps t = memoryOps s := by unfold memoryOps; rw [hqueue, hrunning]
  refine ⟨fun i => ?_, fun i => ?_, hops ▸ h.once, hqueue ▸ h.audits⟩
  · rw [hops, hslot]; exact h.fetches i
  · rw [hops, hslot]; exact h.writes i

theorem CacheAgree.same (h : CacheAgree s) (hdir : ∀ u, (t.dir u).slot = (s.dir u).slot ∧ ((t.dir u).state = .damaged → (t.dir u).slot = none))
    (hslot : ∀ i, t.slot i = s.slot i) (hqueue : t.memQueue = s.memQueue) (hrunning : t.memRunning = s.memRunning) : CacheAgree t := by
  refine ⟨fun u i => ?_, fun u hu => (hdir u).2 hu, fun i => ?_, operationsAgree_same h.operations (fun i => by rw [hslot]) hqueue hrunning⟩
  · rw [(hdir u).1, hslot]; exact h.slot u i
  · rw [hslot]; exact h.slots i

theorem CacheAgree.sameDir (h : CacheAgree s) (hdir : ∀ u, t.dir u = s.dir u) (hslot : ∀ i, t.slot i = s.slot i)
    (hqueue : t.memQueue = s.memQueue) (hrunning : t.memRunning = s.memRunning) : CacheAgree t :=
  h.same (fun u => by rw [hdir]; exact ⟨rfl, h.damaged u⟩) hslot hqueue hrunning

/-- Nothing that the agreement looks at has changed. -/
structure SameTables (s t : State) : Prop where
  phase      : t.phase = s.phase := by simp
  directory  : t.directory = s.directory := by simp
  freeList   : t.freeList = s.freeList := by simp
  closedList : t.closedList = s.closedList := by simp
  holds      : t.holds = s.holds := by simp
  stations   : t.stations = s.stations := by simp
  overflow   : t.overflow = s.overflow := by simp
  counter    : t.ticketCounter = s.ticketCounter := by simp
  slots      : t.slots = s.slots := by simp
  memQueue   : t.memQueue = s.memQueue := by simp
  memRunning : t.memRunning = s.memRunning := by simp

theorem dir_of_directory (h : t.directory = s.directory) (u : Nat) : t.dir u = s.dir u := by unfold State.dir; rw [h]

theorem hold_of_holds (h : t.holds = s.holds) (p : Port) : t.hold p = s.hold p := by unfold State.hold; rw [h]

theorem slot_of_slots (h : t.slots = s.slots) (i : SlotId) : t.slot i = s.slot i := by unfold State.slot; rw [h]

theorem station_of_stations (h : t.stations = s.stations) (p : Port) : t.station p = s.station p := by unfold State.station; rw [h]

theorem liveTickets_of_kitchen (hstations : t.stations = s.stations) (hoverflow : t.overflow = s.overflow) : t.liveTickets = s.liveTickets := by
  unfold State.liveTickets
  simp only [station_of_stations hstations, hoverflow]

theorem kitchenFits_of_kitchen (h : KitchenFits s) (hstations : t.stations = s.stations) (hoverflow : t.overflow = s.overflow)
    (hcounter : t.ticketCounter = s.ticketCounter) : KitchenFits t := by
  refine ⟨fun p => ?_, hoverflow ▸ h.overflow, ?_, fun p x => ?_, hcounter ▸ h.counter⟩
  · rw [station_of_stations hstations]; exact h.stations p
  · rw [liveTickets_of_kitchen hstations hoverflow]; exact h.numbers
  · rw [station_of_stations hstations]; exact h.places p x

theorem Sound.same (h : Sound s) (e : SameTables s t) : Sound t := by
  have hdir := dir_of_directory e.directory
  have hkeys : t.liveKeys = s.liveKeys := by unfold State.liveKeys; rw [liveTickets_of_kitchen e.stations e.overflow]
  exact ⟨kitchenFits_of_kitchen h.kitchen e.stations e.overflow e.counter, h.lists.same hdir e.phase e.freeList e.closedList,
    h.holds.same hdir (hold_of_holds e.holds), h.live.same hdir (.of_eq hkeys) fun p x hx => by rwa [station_of_stations e.stations] at hx,
    h.cache.sameDir hdir (slot_of_slots e.slots) e.memQueue e.memRunning⟩

theorem SameTables.refl (s : State) : SameTables s s := {}

theorem SameTables.trans {u : State} (h : SameTables s t) (k : SameTables t u) : SameTables s u :=
  ⟨k.phase.trans h.phase, k.directory.trans h.directory, k.freeList.trans h.freeList, k.closedList.trans h.closedList,
    k.holds.trans h.holds, k.stations.trans h.stations, k.overflow.trans h.overflow, k.counter.trans h.counter, k.slots.trans h.slots,
    k.memQueue.trans h.memQueue, k.memRunning.trans h.memRunning⟩

theorem SameTables.foldl {α : Type} {f : State → α → State} (hf : ∀ u x, SameTables u (f u x)) (l : List α) (s : State) :
    SameTables s (l.foldl f s) := by
  induction l generalizing s with
  | nil => exact .refl s
  | cons x l ih => exact (hf s x).trans (ih _)

/-- A fold of operations by each of which the tables go on agreeing. -/
theorem Sound.foldl {α : Type} {f : State → α → State} (hf : ∀ u x, Sound u → Sound (f u x)) (l : List α) (h : Sound s) :
    Sound (l.foldl f s) := by
  induction l generalizing s with
  | nil => exact h
  | cons x l ih => exact ih (hf s x h)

/-! ### Facts about agreeing tables -/

/-- A tab whose entry is not as after the format exists, is not FREE, and the part is READY. -/
theorem ListsAgree.inUse (h : ListsAgree s) {tab : Nat} (hne : s.dir tab ≠ DirEntry.formatted) :
    isTab tab = true ∧ (s.dir tab).state ≠ .free ∧ s.phase ≠ .starting := by
  refine ⟨?_, fun hfree => hne (h.formatted tab (.inl hfree)), fun hstart => hne (h.formatted tab (.inr (.inr hstart)))⟩
  cases ht : isTab tab with
  | true => rfl
  | false => exact absurd (h.formatted tab (.inr (.inl ht))) hne

theorem ListsAgree.not_free (h : ListsAgree s) {tab : Nat} (hne : s.dir tab ≠ DirEntry.formatted) : (s.dir tab).state ≠ .free :=
  (h.inUse hne).2.1

theorem ne_formatted_of_state {tab : Nat} (h : (s.dir tab).state ≠ .free) : s.dir tab ≠ DirEntry.formatted := fun e => h (by rw [e]; rfl)

theorem ne_formatted_of_slot {tab : Nat} {i : SlotId} (h : (s.dir tab).slot = some i) : s.dir tab ≠ DirEntry.formatted := fun e => by
  rw [e] at h; cases h

theorem ne_formatted_of_holder {tab : Nat} {p : Port} (h : (s.dir tab).holder = some p) : s.dir tab ≠ DirEntry.formatted := fun e => by
  rw [e] at h; cases h

/-- A tab with a live ticket is not FREE (R10). -/
theorem Sound.not_free_of_live (h : Sound s) {x : Ticket} (hx : x ∈ s.liveTickets) : (s.dir x.tab).state ≠ .free := by
  refine h.lists.not_free fun e => ?_
  have hlive := h.live.live x.tab
  rw [e] at hlive
  have hpos : 0 < liveOf s x.tab := List.countP_pos_iff.2 ⟨ticketKey x, List.mem_map_of_mem hx, by simp [ticketKey]⟩
  exact absurd hlive.symm hpos.ne'

/-- A tab that no till holds is named by no hold (R101). -/
theorem HoldsAgree.not_named (h : HoldsAgree s) {tab : Nat} (hnone : (s.dir tab).holder = none) {p : Port} {x : Hold} (hx : s.hold p = some x) :
    x.tab ≠ tab := fun e => by
  have := h.hold p x hx
  rw [e, hnone] at this
  cases this

/-- A tab whose holder is none unless it is TENDERING. -/
theorem HoldsAgree.unheld (h : HoldsAgree s) {tab : Nat} (hstate : (s.dir tab).state ≠ .tendering) : (s.dir tab).holder = none := by
  cases hh : (s.dir tab).holder with
  | none => rfl
  | some p => exact absurd (h.holder tab p hh).1 hstate

/-- A slot that holds a tab, and what its directory entry then says (R21, R28). -/
theorem CacheAgree.entry (h : CacheAgree s) {tab : Nat} {i : SlotId} (htab : (s.slot i).tab = some tab) : (s.dir tab).slot = some i :=
  (h.slot tab i).2 (.inl htab)

/-- The tab that a slot holds exists, is neither FREE nor DAMAGED, and the part is READY. -/
theorem Sound.cached (h : Sound s) {tab : Nat} {i : SlotId} (hslot : (s.dir tab).slot = some i) :
    isTab tab = true ∧ (s.dir tab).state ≠ .free ∧ (s.dir tab).state ≠ .damaged ∧ s.phase ≠ .starting := by
  obtain ⟨htab, hfree, hphase⟩ := h.lists.inUse (ne_formatted_of_slot hslot)
  refine ⟨htab, hfree, fun hd => ?_, hphase⟩
  have := h.cache.damaged tab hd
  rw [hslot] at this
  cases this

/-! ### One entry changes -/

/-- An entry of a tab in use changes, which stays in use; the closed list goes with its state. -/
theorem ListsAgree.entry (h : ListsAgree s) {tab : Nat} {e : DirEntry} (he : EntryBecomes s t tab e) (hphase : t.phase = s.phase)
    (hfree : t.freeList = s.freeList) (huse : s.dir tab ≠ DirEntry.formatted) (hnew : e.state ≠ .free) (honce : t.closedList.Nodup)
    (hclosed : ∀ u, u ∈ t.closedList ↔ if u = tab then e.state = .closed else u ∈ s.closedList) : ListsAgree t := by
  obtain ⟨hself, hother⟩ := he
  obtain ⟨htab, hold, hready⟩ := h.inUse huse
  refine ⟨hfree ▸ h.freeOnce, fun u => ?_, honce, fun u => ?_, fun u hu => ?_⟩
  · rw [hfree, h.free]
    by_cases hut : u = tab
    · subst hut; rw [hself]; simp [hold, hnew]
    · rw [hother u hut]
  · rw [hclosed]
    by_cases hut : u = tab
    · subst hut; rw [hself, if_pos rfl]
    · rw [hother u hut, if_neg hut, h.closed]
  · rw [hphase] at hu
    by_cases hut : u = tab
    · subst hut; rw [hself, htab] at hu; simp [hnew, hready] at hu
    · rw [hother u hut] at hu ⊢; exact h.formatted u hu

/-- An entry of a tab in use changes, and the tab is CLOSED no more and no less than it was. -/
theorem ListsAgree.entry_sameLists (h : ListsAgree s) {tab : Nat} {e : DirEntry} (he : EntryBecomes s t tab e) (hphase : t.phase = s.phase)
    (hfree : t.freeList = s.freeList) (huse : s.dir tab ≠ DirEntry.formatted) (hnew : e.state ≠ .free) (hlist : t.closedList = s.closedList)
    (hclosed : e.state = .closed ↔ (s.dir tab).state = .closed) : ListsAgree t := by
  refine h.entry he hphase hfree huse hnew (hlist ▸ h.closedOnce) fun u => ?_
  rw [hlist]
  by_cases hut : u = tab
  · subst hut; rw [if_pos rfl, h.closed, hclosed]
  · rw [if_neg hut]

/-- An entry changes, but not its holder; a held tab stays TENDERING. -/
theorem HoldsAgree.entry (h : HoldsAgree s) {tab : Nat} {e : DirEntry} (he : EntryBecomes s t tab e) (hholds : ∀ p, t.hold p = s.hold p)
    (hholder : e.holder = (s.dir tab).holder) (hstate : e.holder ≠ none → e.state = .tendering) : HoldsAgree t := by
  obtain ⟨hself, hother⟩ := he
  have hsame : ∀ u, (t.dir u).holder = (s.dir u).holder := fun u => by
    by_cases hut : u = tab
    · rw [hut, hself, hholder]
    · rw [hother u hut]
  refine ⟨fun u p hp => ⟨?_, ?_⟩, fun p x hx => ?_⟩
  · by_cases hut : u = tab
    · subst hut; rw [hself] at hp ⊢; exact hstate (by rw [hp]; nofun)
    · rw [hother u hut] at hp ⊢; exact (h.holder u p hp).1
  · rw [hholds]; rw [hsame] at hp; exact (h.holder u p hp).2
  · rw [hsame]; rw [hholds] at hx; exact h.hold p x hx

/-- A tab loses its holder, and the till its hold (R105). -/
theorem HoldsAgree.ends (h : HoldsAgree s) {tab : Nat} {e : DirEntry} (he : EntryBecomes s t tab e) (hholder : e.holder = none)
    (hheld : ∀ q, (s.dir tab).holder = some q → HoldBecomes s t q none) (hfree : (s.dir tab).holder = none → ∀ p, t.hold p = s.hold p) :
    HoldsAgree t := by
  obtain ⟨hself, hother⟩ := he
  cases hh : (s.dir tab).holder with
  | none => exact h.entry ⟨hself, hother⟩ (hfree hh) (by rw [hholder, hh]) fun hne => absurd hholder hne
  | some q =>
    obtain ⟨hgone, hothers⟩ := hheld q hh
    have hname := (h.holder tab q hh).2
    refine ⟨fun u p hp => ?_, fun p x hx => ?_⟩
    · have hut : u ≠ tab := fun e => by subst e; rw [hself, hholder] at hp; cases hp
      rw [hother u hut] at hp ⊢
      obtain ⟨hstate, hmap⟩ := h.holder u p hp
      have hpq : p ≠ q := fun e => by subst e; rw [hname] at hmap; cases hmap; exact hut rfl
      exact ⟨hstate, by rw [hothers p hpq, hmap]⟩
    · have hpq : p ≠ q := fun e => by subst e; rw [hgone] at hx; cases hx
      rw [hothers p hpq] at hx
      have hheld := h.hold p x hx
      have hut : x.tab ≠ tab := fun e => by rw [e, hh] at hheld; cases hheld; exact hpq rfl
      rw [hother _ hut]; exact hheld

/-- A till that holds nothing takes a tab that nobody holds (R103, R108). -/
theorem HoldsAgree.takes (h : HoldsAgree s) {tab : Nat} {p : Port} {e : DirEntry} {x : Hold} (he : EntryBecomes s t tab e)
    (hholds : HoldBecomes s t p (some x)) (hx : x.tab = tab) (hholder : e.holder = some p) (hstate : e.state = .tendering)
    (hnone : (s.dir tab).holder = none) (hidle : s.hold p = none) : HoldsAgree t := by
  obtain ⟨hself, hother⟩ := he
  obtain ⟨hown, hothers⟩ := hholds
  refine ⟨fun u q hq => ?_, fun q y hy => ?_⟩
  · by_cases hut : u = tab
    · subst hut
      rw [hself] at hq ⊢
      rw [hholder] at hq
      cases hq
      exact ⟨hstate, by rw [hown, ← hx]; rfl⟩
    · rw [hother u hut] at hq ⊢
      obtain ⟨hs, hmap⟩ := h.holder u q hq
      have hqp : q ≠ p := fun e => by subst e; rw [hidle] at hmap; cases hmap
      exact ⟨hs, by rw [hothers q hqp, hmap]⟩
  · by_cases hqp : q = p
    · subst hqp
      rw [hown] at hy
      cases hy
      rw [hx, hself, hholder]
    · rw [hothers q hqp] at hy
      have hut := h.not_named hnone hy
      rw [hother _ hut]; exact h.hold q y hy

/-- An entry changes, but not its live count; a tab in use stays in use. -/
theorem LiveAgree.entry (h : LiveAgree s) {tab : Nat} {e : DirEntry} (he : EntryBecomes s t tab e) (hlive : e.live = (s.dir tab).live)
    (hstate : (s.dir tab).state ≠ .free → e.state ≠ .free) (hkeys : t.liveKeys.Perm s.liveKeys)
    (hrecalls : ∀ p, ∀ x ∈ (t.station p).recalls, x ∈ (s.station p).recalls) : LiveAgree t := by
  obtain ⟨hself, hother⟩ := he
  refine ⟨fun u => ?_, fun p x hx hgone => ?_⟩
  · have hcount : liveOf t u = liveOf s u := hkeys.countP_eq _
    rw [hcount, ← h.live]
    by_cases hut : u = tab
    · rw [hut, hself, hlive]
    · rw [hother u hut]
  · have hold := h.recalls p x (hrecalls p x hx) hgone
    by_cases hut : x.ticket.tab = tab
    · rw [hut] at hold ⊢; rw [hself]; exact hstate hold
    · rw [hother _ hut]; exact hold

/-- An entry changes, but not its slot field. -/
theorem CacheAgree.entry_same (h : CacheAgree s) {tab : Nat} {e : DirEntry} (he : EntryBecomes s t tab e) (hslot : e.slot = (s.dir tab).slot)
    (hdamaged : e.state = .damaged → e.slot = none) (hslots : ∀ i, t.slot i = s.slot i) (hqueue : t.memQueue = s.memQueue)
    (hrunning : t.memRunning = s.memRunning) : CacheAgree t := by
  obtain ⟨hself, hother⟩ := he
  refine h.same (fun u => ?_) hslots hqueue hrunning
  by_cases hut : u = tab
  · rw [hut, hself]; exact ⟨hslot, hdamaged⟩
  · rw [hother u hut]; exact ⟨rfl, h.damaged u⟩

/-- A slot changes, but not its state, its tab or what comes in. -/
theorem CacheAgree.setSlot (h : CacheAgree s) {i : SlotId} {x : CacheSlot} (hx : SlotBecomes s t i x) (hdir : ∀ u, t.dir u = s.dir u)
    (hqueue : t.memQueue = s.memQueue) (hrunning : t.memRunning = s.memRunning) (hstate : x.state = (s.slot i).state)
    (htab : x.tab = (s.slot i).tab) (hincoming : x.incoming = (s.slot i).incoming) (hsound : SlotSound x) : CacheAgree t := by
  obtain ⟨hself, hother⟩ := hx
  have hsame : ∀ j, (t.slot j).tab = (s.slot j).tab ∧ (t.slot j).incoming = (s.slot j).incoming ∧
      (t.slot j).state = (s.slot j).state := fun j => by
    by_cases hj : j = i
    · rw [hj, hself]; exact ⟨htab, hincoming, hstate⟩
    · rw [hother j hj]; exact ⟨rfl, rfl, rfl⟩
  refine ⟨fun u j => ?_, fun u => ?_, fun j => ?_, operationsAgree_same h.operations (fun j => (hsame j).2.2) hqueue hrunning⟩
  · rw [hdir, (hsame j).1, (hsame j).2.1]; exact h.slot u j
  · rw [hdir]; exact h.damaged u
  · by_cases hj : j = i
    · rw [hj, hself]; exact hsound
    · rw [hother j hj]; exact h.slots j

end Sys2Proof.TabAgreement
end

section
/-! PROOFS. The agreement of the tables under the operations of the lane ports, the items, the notices and the kitchen unit. -/

namespace Sys2Proof.TabAgreement

-- One theorem after another: as many checks at once take a thread each.
set_option Elab.async false

open Sys2Proof Sys2Proof.Machine Sys2Proof.Statements Sys2Proof.Invariants Sys2Proof.AtSlot

variable {s t : State}

/-! ### Operations that change nothing the agreement looks at -/

theorem SameTables.reply (s : State) (p : Port) (st : Status) (fields : List Byte) : SameTables s (s.reply p st fields) := {}

theorem SameTables.refuse (s : State) (p : Port) (st : Status) (d : Detail) : SameTables s (s.refuse p st d) := .reply s p st d.bytes

theorem SameTables.refuseWaiter (s : State) (st : Status) (w : Waiter) : SameTables s (s.refuseWaiter st w) := .refuse s w.port st _

theorem SameTables.answer (s : State) (p : Port) (st : Status) (kind tag : Byte) : SameTables s (s.answer p st kind tag) := {}

theorem SameTables.sendOwn (s : State) (p : Port) (kind : Kind) (body : List Byte) (source : TxSource) :
    SameTables s (s.sendOwn p kind body source) := {}

theorem SameTables.markStale (s : State) (p : Port) : SameTables s (s.markStale p) := {}

theorem SameTables.raise (s : State) (n : Notice) : SameTables s (s.raise n) := {}

theorem SameTables.setItem (s : State) (c : Nat) (x : Option Item) : SameTables s (s.setItem c x) := {}

theorem SameTables.touch (s : State) (i : SlotId) : SameTables s (s.touch i) := {}

theorem SameTables.latchChange (s : State) (e : AvailEntry) : SameTables s (s.latchChange e) := by
  unfold State.latchChange
  split
  · exact {}
  · split
    · exact .trans (t := { s with availList := _ }) {} (.raise _ _)
    · refine .trans ?_ (.raise _ _)
      exact (SameTables.foldl (fun u p => .markStale u p) s.tillPorts s).trans {}

theorem SameTables.latchItem (s before : State) (c : Nat) : SameTables s (s.latchItem before c) := by
  unfold State.latchItem
  split
  · exact .refl s
  · exact .latchChange _ _

theorem SameTables.latchItems (s before : State) (codes : List Nat) : SameTables s (s.latchItems before codes) :=
  SameTables.foldl (f := fun acc c => acc.latchItem before c) (fun u c => .latchItem u before c) _ s

theorem SameTables.mapTracking (s : State) (c : Nat) (f : Tracking → Tracking) : SameTables s (s.mapTracking c f) := {}

/-! ### Tickets that stay, leave and come -/

/-- Nothing has changed but the kitchen's lists and what the agreement does not look at. -/
structure OnlyKitchen (s t : State) : Prop where
  phase      : t.phase = s.phase := by simp
  directory  : t.directory = s.directory := by simp
  freeList   : t.freeList = s.freeList := by simp
  closedList : t.closedList = s.closedList := by simp
  holds      : t.holds = s.holds := by simp
  slots      : t.slots = s.slots := by simp
  memQueue   : t.memQueue = s.memQueue := by simp
  memRunning : t.memRunning = s.memRunning := by simp

theorem OnlyKitchen.of_frame {stations : Vector Station 24} {overflow : List Ticket} {counter : Nat}
    (h : t = { s with stations := stations, overflow := overflow, ticketCounter := counter }) : OnlyKitchen s t := by
  rw [h]
  exact ⟨rfl, rfl, rfl, rfl, rfl, rfl, rfl, rfl⟩

theorem liveKeys_setStation_same (s : State) (p : Port) {x : Station} (hq : x.queue = (s.station p).queue) :
    (s.setStation p x).liveKeys.Perm s.liveKeys := by
  refine List.Perm.map ticketKey ((liveTickets_setStation_perm s p x).trans ?_)
  rw [hq]
  exact (liveTickets_perm s p).symm

/-- A change of the kitchen alone by which the live tickets stay, and nothing new is listed for recall. -/
theorem Sound.sameTickets (h : Sound s) (hk : OnlyKitchen s t) (fits : KitchenFits t) (hkeys : t.liveKeys.Perm s.liveKeys)
    (hrecalls : ∀ p, ∀ e ∈ (t.station p).recalls, e ∈ (s.station p).recalls) : Sound t := by
  have hdir := dir_of_directory hk.directory
  exact ⟨fits, h.lists.same hdir hk.phase hk.freeList hk.closedList, h.holds.same hdir (hold_of_holds hk.holds),
    h.live.same hdir hkeys hrecalls, h.cache.sameDir hdir (slot_of_slots hk.slots) hk.memQueue hk.memRunning⟩

theorem Sound.tickets (h : Sound s) (k : TicketsKept s t) : Sound t :=
  h.sameTickets (.of_frame k.frame) (k.fits h.kitchen) (k.keys h.kitchen) k.recalls

/-- A change of the kitchen alone by which the tickets of the other tabs stay, and those of one tab change in number with its count. -/
theorem Sound.recounted (h : Sound s) {v : State} {tab n : Nat} (hk : OnlyKitchen s v) (fits : KitchenFits v)
    (huse : s.dir tab ≠ DirEntry.formatted) (hown : n = liveOf v tab) (hothers : ∀ u, u ≠ tab → liveOf v u = liveOf s u)
    (hrecalls : ∀ p, ∀ e ∈ (v.station p).recalls, e.gone = false → e ∈ (s.station p).recalls ∨ e.ticket.tab = tab) :
    Sound (v.setDir tab { s.dir tab with live := n }) := by
  have hentry : EntryBecomes s (v.setDir tab { s.dir tab with live := n }) tab { s.dir tab with live := n } :=
    entryBecomes_of (u := v) rfl fun u _ => dir_of_directory hk.directory u
  have hfree := h.lists.not_free huse
  refine ⟨kitchenFits_of_kitchen fits rfl rfl rfl,
    h.lists.entry_sameLists hentry (by exact hk.phase) (by exact hk.freeList) huse hfree (by exact hk.closedList) .rfl,
    h.holds.entry hentry (hold_of_holds (by exact hk.holds)) rfl fun hne => ?_, ⟨fun u => ?_, fun p e he hgone => ?_⟩,
    h.cache.entry_same hentry rfl (h.cache.damaged tab) (slot_of_slots (by exact hk.slots)) (by exact hk.memQueue) (by exact hk.memRunning)⟩
  · obtain ⟨p, hp⟩ := Option.ne_none_iff_exists'.1 hne
    exact (h.holds.holder tab p hp).1
  · change _ = liveOf v u
    by_cases hu : u = tab
    · rw [hu, hentry.1]; exact hown
    · rw [hentry.2 u hu, hothers u hu]; exact h.live.live u
  · by_cases hu : e.ticket.tab = tab
    · rw [hu, hentry.1]; exact hfree
    · rw [hentry.2 _ hu]
      exact h.live.recalls p e ((hrecalls p e he hgone).resolve_right hu) hgone

theorem liveOf_append {l : List (Nat × Nat)} {tab : Nat} (hl : ∀ k ∈ l, k.2 = tab) (hkeys : t.liveKeys.Perm (l ++ s.liveKeys)) :
    liveOf t tab = liveOf s tab + l.length ∧ ∀ u, u ≠ tab → liveOf t u = liveOf s u := by
  refine ⟨?_, fun u hu => ?_⟩ <;> unfold liveOf <;> rw [hkeys.countP_eq, List.countP_append]
  · rw [List.countP_eq_length.2 (by simpa using hl), Nat.add_comm]
  · rw [List.countP_eq_zero.2 fun k hk => by simpa [hl k hk] using Ne.symm hu, Nat.zero_add]

/-- A live ticket leaves its place, and its tab's count falls (R10). -/
theorem Sound.ticketLeaves (h : Sound s) {v : State} {x : Ticket} (hx : x ∈ s.liveTickets) (hk : OnlyKitchen s v) (fits : KitchenFits v)
    (hkeys : s.liveKeys.Perm (ticketKey x :: v.liveKeys))
    (hrecalls : ∀ p, ∀ e ∈ (v.station p).recalls, e.gone = false → e ∈ (s.station p).recalls ∨ e.ticket.tab = x.tab) :
    Sound (v.lowerLive x.tab) := by
  obtain ⟨hown, hothers⟩ := liveOf_append (s := v) (t := s) (l := [ticketKey x]) (tab := x.tab) (by simp [ticketKey]) hkeys
  unfold State.lowerLive
  rw [dir_of_directory hk.directory x.tab]
  refine h.recounted hk fits (ne_formatted_of_state (h.not_free_of_live hx)) ?_ (fun u hu => (hothers u hu).symm) hrecalls
  rw [h.live.live x.tab, hown, List.length_singleton, Nat.add_sub_cancel]

/-- Tickets of a tab in use come to live, and its count rises (R10). -/
theorem Sound.ticketsEnter (h : Sound s) {v : State} {tab : Nat} {l : List (Nat × Nat)} (hk : OnlyKitchen s v) (fits : KitchenFits v)
    (huse : s.dir tab ≠ DirEntry.formatted) (hl : ∀ k ∈ l, k.2 = tab) (hkeys : v.liveKeys.Perm (l ++ s.liveKeys))
    (hrecalls : ∀ p, ∀ e ∈ (v.station p).recalls, e ∈ (s.station p).recalls) : Sound (v.raiseLive tab l.length) := by
  obtain ⟨hown, hothers⟩ := liveOf_append hl hkeys
  unfold State.raiseLive
  rw [dir_of_directory hk.directory tab]
  refine h.recounted hk fits huse ?_ hothers fun p e he _ => .inl (hrecalls p e he)
  rw [h.live.live tab, hown]

/-! ### The kitchen's own operations -/

theorem Sound.resync (h : Sound s) (p : Port) (c : Fin 4) : Sound (s.setStation p { s.station p with resync := c }) :=
  h.tickets (.setStation_same rfl rfl fun k w => ⟨k, w⟩)

theorem Sound.offerWithdraw (h : Sound s) (x : Ticket) : Sound (s.offerWithdraw x) := by
  unfold State.offerWithdraw
  split
  · split
    · exact h.same (.sendOwn _ _ _ _ _)
    · exact h.resync _ _
  · exact h

theorem Sound.sendImage (h : Sound s) (p : Port) (c : Fin 4) : Sound (s.sendImage p c) :=
  Sound.resync (h.same (.sendOwn s p .image _ .own)) p c

theorem Sound.sendTicket (h : Sound s) {p : Port} (hp : s.maySendTicket p = true) (x : Ticket) : Sound (s.sendTicket p x) := by
  have hlen : (s.station p).sent.length < (s.station p).window := by
    simp only [State.maySendTicket, Bool.and_eq_true, decide_eq_true_eq] at hp
    exact hp.1.1.1.2
  have h2 : Sound ((s.sendOwn p .ticket (ticketBody x) .own).mapTicket p x.number
      (fun u => { u with state := .sent, everTransmitted := true })) :=
    (h.same (.sendOwn _ _ _ _ _)).tickets (.mapTicket _ p _ fun _ _ _ _ => ⟨rfl, rfl⟩)
  unfold State.sendTicket
  dsimp only
  generalize hs2 : (s.sendOwn p .ticket (ticketBody x) .own).mapTicket p x.number
    (fun u => { u with state := .sent, everTransmitted := true }) = s2 at h2 ⊢
  have hlen2 : (s2.station p).sent.length < (s2.station p).window := by
    rw [← hs2, State.mapTicket, State.station_setStation_self]; exact hlen
  have h3 : Sound (s2.setStation p { s2.station p with sent := (s2.station p).sent ++ [x.number] }) :=
    h2.tickets (.setStation_same rfl rfl fun _ w => ⟨by simpa using hlen2, w⟩)
  split
  · exact h3.tickets (.restartAck _ p)
  · exact h3

theorem OnlyKitchen.removeFromQueue (s : State) (p : Port) (n : Nat) : OnlyKitchen s (s.removeFromQueue p n) := by
  rw [removeFromQueue_eq]
  exact {}

/-- A live ticket is taken from its place for good (R84, R85). -/
theorem Sound.removeTicket (h : Sound s) {x : Ticket} (hx : x ∈ s.liveTickets) : Sound (s.removeTicket x) := by
  unfold State.removeTicket
  split
  · rename_i hin
    obtain ⟨fits, hkeys⟩ := overflow_filter_kept h.kitchen (h.kitchen.in_overflow hx hin)
    exact (h.ticketLeaves hx {} fits hkeys fun _ _ he _ => .inl he).offerWithdraw x
  · rename_i hout
    obtain ⟨fits, hkeys⟩ := removeFromQueue_kept h.kitchen (h.kitchen.in_queue hx (by simpa using hout))
    refine ((h.ticketLeaves hx (.removeFromQueue s _ _) fits hkeys fun p e he _ => .inl ?_).tickets (.promote _)).offerWithdraw x
    rwa [removeFromQueue_recalls] at he

theorem Sound.strikeLine (h : Sound s) {x : Ticket} (hx : x ∈ s.liveTickets) (line : Nat) : Sound (s.strikeLine x line) := by
  by_cases hl : (struckTicket line x).lines = []
  · rw [show s.strikeLine x line = s.removeTicket x from if_pos hl]
    exact h.removeTicket hx
  · exact h.tickets (.strikeLine hx line hl)

theorem Sound.kitchenVoid (h : Sound s) (tab : Nat) (l : TabLine) (n : Nat) : Sound (s.kitchenVoid n (s.voidFate tab l)) := by
  cases hf : s.voidFate tab l with
  | strike x => exact h.strikeLine (voidFate_live hf) n
  | void => exact h
  | waste => exact h

/-- A ticket of the station's queue is bumped: it leaves and is listed for recall (R79, R80). -/
theorem Sound.bumpTicket (h : Sound s) {p : Port} {x : Ticket} (hx : x ∈ (s.station p).queue) : Sound (s.bumpTicket p x) := by
  obtain ⟨fits, hkeys⟩ := removeFromQueue_kept h.kitchen hx
  generalize hv : s.removeFromQueue p x.number = v at fits hkeys
  have hk : OnlyKitchen s v := hv ▸ .removeFromQueue s p x.number
  have hrecalls : ∀ q, (v.station q).recalls = (s.station q).recalls := hv ▸ removeFromQueue_recalls s p x.number
  have hpushed := h.ticketLeaves (x := x) (v := v.setStation p { v.station p with
      recalls := pushRecall (v.station p).recalls x, lastBump := some s.now }) (mem_liveTickets_of_queue hx)
    ⟨hk.phase, hk.directory, hk.freeList, hk.closedList, hk.holds, hk.slots, hk.memQueue, hk.memRunning⟩
    (fits.shrink ⟨(fits.stations p).queue, (fits.stations p).sent, (fits.stations p).window, by simp [pushRecall]⟩ (.refl _))
    (hkeys.trans ((liveKeys_setStation_same v p (by rfl)).symm.cons _)) fun q e he _ => ?_
  · unfold State.bumpTicket
    rw [hv]
    exact hpushed.tickets (.promote _)
  · by_cases hq : q = p
    · subst hq
      rw [State.station_setStation_self] at he
      rcases List.mem_cons.1 (List.mem_of_mem_take he) with rfl | he
      · exact .inr rfl
      · exact .inl (hrecalls q ▸ he)
    · rw [State.station_setStation_other _ hq, hrecalls] at he
      exact .inl he

/-- The newest bumped ticket comes back (R81). -/
theorem Sound.recallEntry (h : Sound s) {p : Port} {e : RecallEntry} {rest : List RecallEntry} (hrecalls : (s.station p).recalls = e :: rest)
    (hgone : e.gone = false) (hlen : (s.station p).queue.length < 24) : Sound (s.recallEntry p e.ticket) := by
  obtain ⟨fits, hkeys⟩ := recalledStation_kept h.kitchen hlen e.ticket
  rw [recallEntry_eq]
  refine h.ticketsEnter (l := [(s.recallNumber e.ticket, e.ticket.tab)]) {} fits
    (ne_formatted_of_state (h.live.recalls p e (by rw [hrecalls]; exact List.mem_cons_self) hgone)) (by simp) hkeys fun q y hy => ?_
  by_cases hq : q = p
  · subst hq
    change y ∈ ((s.setStation q (recalledStation s q e.ticket)).station q).recalls at hy
    rw [State.station_setStation_self] at hy
    exact List.mem_of_mem_tail hy
  · change y ∈ ((s.setStation p (recalledStation s p e.ticket)).station q).recalls at hy
    rwa [State.station_setStation_other _ hq] at hy

/-- Entries are taken from a recall list (R81, R93). -/
theorem Sound.dropRecalls (h : Sound s) {p : Port} {x : Station} (hq : x.queue = (s.station p).queue) (hs : x.sent = (s.station p).sent)
    (hw : x.window = (s.station p).window) (hr : x.recalls.Sublist (s.station p).recalls) : Sound (s.setStation p x) := by
  refine h.tickets (.setStation (fun k => ⟨hq ▸ k.queue, hs ▸ hw ▸ k.sent, hw ▸ k.window, hr.length_le.trans k.recalls⟩) (fun _ => by rw [hq])
    (fun _ => by rw [hq]) fun e he => hr.subset he)

theorem Sound.helloStation (h : Sound s) (p : Port) : Sound (s.helloStation p) := by
  have h1 := h.tickets ((TicketsKept.hello s p).trans (.promote _))
  unfold State.helloStation
  dsimp only
  split
  · exact h1
  · exact h1.same (.raise _ _)

theorem Sound.ackExpiry (h : Sound s) (p : Port) (d : Nat) : Sound (s.ackExpiry p d) :=
  ((Sound.same (t := { s with now := max s.now d }) h {}).tickets (.darkHandling _ p)).same (.raise _ _)

theorem Sound.kitchenReset (h : Sound s) (p : Port) : Sound (s.kitchenReset p) := by
  have h1 : Sound (s.setStation p { s.station p with recalls := [], lastBump := none }) :=
    h.dropRecalls rfl rfl rfl (List.nil_sublist _)
  have h2 := (h1.tickets (.darkHandling _ p)).resync p 3
  unfold State.kitchenReset
  dsimp only
  split
  · exact h2.same (.raise _ _)
  · exact h2

/-- A station's entry is loaded: its tickets stay, though some of them QUEUED again. -/
theorem ticketsKept_loadStation (s : State) {e : Port × StationEntry} (hw : 1 ≤ e.2.window ∧ e.2.window ≤ 4) :
    TicketsKept s (s.loadStation e) where
  fits k := loadStation_fits k hw
  keys k := by
    obtain ⟨q, x⟩ := e
    rw [loadStation_eq]
    unfold State.fitWindow
    -- the window is not looked at while tickets return, so they return as if it were as it was
    have hwide : s.setStation q (loadedStation (s.station q) x) =
        (s.setStation q { s.station q with alternate := x.alternate, balance := x.balance }).setStation q
          { (s.setStation q { s.station q with alternate := x.alternate, balance := x.balance }).station q with window := x.window } := by
      rw [State.station_setStation_self, State.setStation_setStation]; rfl
    have hkept : TicketsKept s (s.setStation q { s.station q with alternate := x.alternate, balance := x.balance }) :=
      .setStation_same rfl rfl fun hs hw => ⟨hs, hw⟩
    generalize (State.station _ q).sent.length - _ = n
    rw [hwide, unsend_windowed]
    refine (liveKeys_setStation_same _ q (by rfl)).trans ?_
    exact (TicketsKept.foldl _ hkept fun u _ => .unsendNewest u q).keys k
  recalls p x hx := by
    have hfit := (TicketsKept.fitWindow (s.setStation e.1 (loadedStation (s.station e.1) e.2)) e.1).recalls p x hx
    by_cases hp : p = e.1
    · subst hp; rwa [State.station_setStation_self] at hfit
    · rwa [State.station_setStation_other _ hp] at hfit
  frame := loadStation_frame s e

theorem Sound.imagePeriod (h : Sound s) : Sound s.imagePeriod := by
  have fits := ((Keeps.refl (ok := True) s).imagePeriod).kitchen h.kitchen
  unfold State.imagePeriod at fits ⊢
  cases hd : s.imageTimer with
  | none => exact h
  | some d =>
    rw [hd] at fits
    have hstation : ∀ p, State.station { s with stations := s.stations.map Station.imagePeriod } p = (s.station p).imagePeriod :=
      station_map s Station.imagePeriod
    have hlive : State.liveKeys { s with stations := s.stations.map Station.imagePeriod } = s.liveKeys := by
      simp only [State.liveKeys, State.liveTickets, hstation]; rfl
    refine h.sameTickets {} fits (.of_eq hlive) fun p e he => ?_
    change e ∈ (State.station { s with stations := s.stations.map Station.imagePeriod } p).recalls at he
    rwa [hstation] at he

end Sys2Proof.TabAgreement
end

section
/-! PROOFS. The agreement of the tables when a slot turns: it starts to fetch or to write, becomes READY or EMPTY (R19, R23, R28, R29). -/

namespace Sys2Proof.TabAgreement

-- One theorem after another: as many checks at once take a thread each.
set_option Elab.async false

open Sys2Proof Sys2Proof.Machine Sys2Proof.Statements Sys2Proof.Invariants Sys2Proof.AtSlot Sys2Proof.OrderRules

variable {s t : State}

/-! ### Operations at the memory controller (R29) -/

/-- The operation that a slot in a state has at the controller. -/
def slotOp (i : SlotId) : SlotState → List MemOp
  | .fetching => [.fetch i]
  | .writing => [.writeBack i]
  | _ => []

theorem fetch_mem_slotOp {i j : SlotId} {x : SlotState} : MemOp.fetch j ∈ slotOp i x ↔ j = i ∧ x = .fetching := by
  cases x <;> simp [slotOp]

theorem writeBack_mem_slotOp {i j : SlotId} {x : SlotState} : MemOp.writeBack j ∈ slotOp i x ↔ j = i ∧ x = .writing := by
  cases x <;> simp [slotOp]

theorem slotOp_nodup (i : SlotId) (x : SlotState) : (slotOp i x).Nodup := by cases x <;> simp [slotOp]

/-- One slot's operation is exchanged for that of its new state; the others stay. -/
theorem operationsAgree_becomes (h : OperationsAgree s) {i : SlotId} {rest : List MemOp}
    (hother : ∀ j, j ≠ i → (t.slot j).state = (s.slot j).state) (hold : (memoryOps s).Perm (slotOp i (s.slot i).state ++ rest))
    (hnew : (memoryOps t).Perm (slotOp i (t.slot i).state ++ rest)) (haudits : ∀ u, MemOp.auditRead u ∉ t.memQueue) :
    OperationsAgree t := by
  have honce := hold.nodup_iff.1 h.once
  rw [List.nodup_append] at honce
  obtain ⟨-, hrest, hapart⟩ := honce
  have hnofetch : MemOp.fetch i ∉ rest := fun hin => by
    have hstate := (h.fetches i).1 (hold.mem_iff.2 (List.mem_append_right _ hin))
    exact hapart _ (fetch_mem_slotOp.2 ⟨rfl, hstate⟩) _ hin rfl
  have hnowrite : MemOp.writeBack i ∉ rest := fun hin => by
    have hstate := (h.writes i).1 (hold.mem_iff.2 (List.mem_append_right _ hin))
    exact hapart _ (writeBack_mem_slotOp.2 ⟨rfl, hstate⟩) _ hin rfl
  refine ⟨fun j => ?_, fun j => ?_, hnew.nodup_iff.2 (List.nodup_append.2 ⟨slotOp_nodup _ _, hrest, ?_⟩), haudits⟩
  · rw [hnew.mem_iff, List.mem_append, fetch_mem_slotOp]
    by_cases hj : j = i
    · subst hj; simp [hnofetch]
    · rw [hother j hj, ← h.fetches j, hold.mem_iff, List.mem_append, fetch_mem_slotOp]; simp [hj]
  · rw [hnew.mem_iff, List.mem_append, writeBack_mem_slotOp]
    by_cases hj : j = i
    · subst hj; simp [hnowrite]
    · rw [hother j hj, ← h.writes j, hold.mem_iff, List.mem_append, writeBack_mem_slotOp]; simp [hj]
  · rintro op hop _ hin rfl
    cases op with
    | fetch j => obtain ⟨rfl, -⟩ := fetch_mem_slotOp.1 hop; exact hnofetch hin
    | writeBack j => obtain ⟨rfl, -⟩ := writeBack_mem_slotOp.1 hop; exact hnowrite hin
    | auditRead u => cases hstate : (t.slot i).state <;> rw [hstate] at hop <;> simp [slotOp] at hop

/-- The operation of a slot enters the queue. -/
theorem memoryOps_enqueue {op : MemOp} (hqueue : t.memQueue = s.memQueue ++ [op]) (hrunning : t.memRunning = s.memRunning) :
    (memoryOps t).Perm ([op] ++ memoryOps s) := by
  unfold memoryOps
  rw [hqueue, hrunning, ← List.append_assoc]
  exact List.perm_append_comm.append_right _

/-- The running operation of a slot. -/
theorem memoryOps_running {op : MemOp} {deadline : Nat} (hrunning : s.memRunning = some { op := op, deadline := deadline }) :
    (memoryOps s).Perm ([op] ++ s.memQueue) := by
  unfold memoryOps
  rw [hrunning]
  exact List.perm_append_comm

theorem memoryOps_free (hrunning : t.memRunning = none) : memoryOps t = t.memQueue := by
  unfold memoryOps
  rw [hrunning]
  exact List.append_nil _

/-! ### What a slot may hold (R19, R28) -/

theorem slotSound_fetching {tab : Nat} {waits : List Waiter} (hwaits : ∀ w ∈ waits, requestTab w.request = tab) :
    SlotSound { state := .fetching, tab := some tab, incoming := .none, record := none, dirty := false, waits := waits } :=
  ⟨nofun, nofun, fun h => by cases h <;> contradiction, fun _ => rfl, nofun, fun w hw => by rw [hwaits w hw]⟩

theorem slotSound_ready {x : CacheSlot} {r : TabRecord} (hstate : x.state = .ready) (hincoming : x.incoming = .none)
    (hrec : x.record = some r) (htab : x.tab = some r.tab) (hwaits : ∀ w ∈ x.waits, requestTab w.request = r.tab) : SlotSound x where
  empty h := by rw [hstate] at h; cases h
  tab _ := by rw [htab]; nofun
  record _ := ⟨r, hrec, htab⟩
  incoming _ := hincoming
  own u h := by rw [hincoming] at h; cases h
  waits w hw := by rw [hincoming, htab, hwaits w hw]

theorem slotSound_writing {x : CacheSlot} {r : TabRecord} (hstate : x.state = .writing) (hrec : x.record = some r)
    (htab : x.tab = some r.tab) (hown : x.incoming ≠ .tab r.tab)
    (hkeeps : x.incoming = .none → ∀ w ∈ x.waits, requestTab w.request = r.tab)
    (htakes : ∀ u, x.incoming = .tab u → ∀ w ∈ x.waits, requestTab w.request = u)
    (hnew : x.incoming = .new → ∀ w ∈ x.waits, requestTab w.request = 0) : SlotSound x where
  empty h := by rw [hstate] at h; cases h
  tab _ := by rw [htab]; nofun
  record _ := ⟨r, hrec, htab⟩
  incoming h := absurd hstate h
  own u h e := by rw [htab] at e; cases e; exact hown h
  waits w hw := by
    cases hincoming : x.incoming with
    | none => rw [htab, hkeeps hincoming w hw]
    | tab u => exact htakes u hincoming w hw
    | new => exact hnew hincoming w hw

/-- Those who wait at a slot with nothing coming in wait for its tab. -/
theorem slotSound_waitsFor {x : CacheSlot} (h : SlotSound x) {tab : Nat} (htab : x.tab = some tab) (hincoming : x.incoming = .none)
    {w : Waiter} (hw : w ∈ x.waits) : requestTab w.request = tab := by
  have hfor := h.waits w hw
  rw [hincoming, htab] at hfor
  exact (Option.some.inj hfor).symm

/-- Fewer wait at a slot. -/
theorem slotSound_fewer {x : CacheSlot} (h : SlotSound x) {waits : List Waiter} (hwaits : ∀ w ∈ waits, w ∈ x.waits) :
    SlotSound { x with waits := waits } := by
  refine ⟨fun hempty => ?_, h.tab, h.record, h.incoming, h.own, fun w hw => h.waits w (hwaits w hw)⟩
  have hx := h.empty hempty
  have : waits = [] := List.eq_nil_iff_forall_not_mem.2 fun w hw => by have := hwaits w hw; rw [hx] at this; cases this
  rw [this, hx]; rfl

/-- Another record of the same tab. -/
theorem slotSound_rewrite {x : CacheSlot} (h : SlotSound x) {r r' : TabRecord} {dirty : Bool} (hrec : x.record = some r)
    (htab : r'.tab = r.tab) (hstate : x.state = .ready ∨ x.state = .writing) : SlotSound { x with record := some r', dirty := dirty } := by
  obtain ⟨r0, hr0, ht0⟩ := h.record hstate
  rw [hrec] at hr0
  cases hr0
  refine ⟨fun hempty => ?_, h.tab, fun _ => ⟨r', rfl, by rw [htab]; exact ht0⟩, h.incoming, h.own, h.waits⟩
  rcases hstate with e | e <;> (change x.state = .empty at hempty; rw [e] at hempty; cases hempty)

/-! ### A slot turns -/

/-- A slot holds a tab, or the tab comes in. -/
def names (x : CacheSlot) (tab : Nat) : Bool := decide (x.tab = some tab) || decide (x.incoming = .tab tab)

theorem names_iff {x : CacheSlot} {tab : Nat} : names x tab = true ↔ x.tab = some tab ∨ x.incoming = .tab tab := by simp [names]

theorem names_cleared (tab : Nat) : names CacheSlot.cleared tab = false := rfl

theorem CacheAgree.names_iff (h : CacheAgree s) (i : SlotId) (tab : Nat) : names (s.slot i) tab = true ↔ (s.dir tab).slot = some i :=
  TabAgreement.names_iff.trans (h.slot tab i).symm

/-- A tab's slot field when slot `i` turns into `x`. -/
def turnedField (s : State) (i : SlotId) (x : CacheSlot) (tab : Nat) : Option SlotId :=
  if names x tab then some i else if (s.dir tab).slot = some i then none else (s.dir tab).slot

/-- A slot turns: its operation is exchanged, and the slot fields follow what it holds and what comes in. -/
theorem CacheAgree.becomes (h : CacheAgree s) {i : SlotId} {x : CacheSlot} {rest : List MemOp} (hslot : SlotBecomes s t i x)
    (hsound : SlotSound x) (hdir : ∀ u, (t.dir u).slot = turnedField s i x u)
    (hfresh : ∀ u, names x u = true → (s.dir u).slot = none ∨ (s.dir u).slot = some i)
    (hdamaged : ∀ u, (t.dir u).state = .damaged → (t.dir u).slot = none)
    (hold : (memoryOps s).Perm (slotOp i (s.slot i).state ++ rest)) (hnew : (memoryOps t).Perm (slotOp i x.state ++ rest))
    (haudits : ∀ u, MemOp.auditRead u ∉ t.memQueue) : CacheAgree t := by
  obtain ⟨hself, hother⟩ := hslot
  refine ⟨fun u j => ?_, hdamaged, fun j => ?_,
    operationsAgree_becomes h.operations (fun j hj => by rw [hother j hj]) hold (by rw [hself]; exact hnew) haudits⟩
  · rw [hdir, ← TabAgreement.names_iff]
    unfold turnedField
    by_cases hj : j = i
    · subst hj
      rw [hself]
      by_cases hx : names x u = true
      · simp [hx]
      · simp only [hx]; split <;> simp_all
    · rw [hother j hj, h.names_iff]
      by_cases hx : names x u = true
      · rw [if_pos hx]
        refine iff_of_false (fun e => hj (Option.some.inj e).symm) fun e => ?_
        rcases hfresh u hx with hn | hn <;> rw [hn] at e
        · cases e
        · exact hj (Option.some.inj e).symm
      · rw [if_neg hx]
        split
        · rename_i hi
          rw [hi]
          exact iff_of_false nofun fun e => hj (Option.some.inj e).symm
        · exact .rfl
  · by_cases hj : j = i
    · rw [hj, hself]; exact hsound
    · rw [hother j hj]; exact h.slots j

/-- Nothing has changed but the slots, the slot fields, the controller and what the agreement does not look at. -/
structure OnlyCache (s t : State) : Prop where
  phase      : t.phase = s.phase := by simp
  freeList   : t.freeList = s.freeList := by simp
  closedList : t.closedList = s.closedList := by simp
  holds      : t.holds = s.holds := by simp
  stations   : t.stations = s.stations := by simp
  overflow   : t.overflow = s.overflow := by simp
  counter    : t.ticketCounter = s.ticketCounter := by simp

/-- Slot fields of tabs in use change, and the cache agrees. -/
theorem Sound.recached (h : Sound s) (hk : OnlyCache s t) (hdir : ∀ u, ∃ x, t.dir u = { s.dir u with slot := x })
    (hformatted : ∀ u, s.dir u = DirEntry.formatted → t.dir u = DirEntry.formatted) (hcache : CacheAgree t) : Sound t := by
  have hsame : ∀ u, (t.dir u).state = (s.dir u).state ∧ (t.dir u).holder = (s.dir u).holder ∧ (t.dir u).live = (s.dir u).live := fun u => by
    obtain ⟨x, hx⟩ := hdir u
    rw [hx]
    exact ⟨rfl, rfl, rfl⟩
  have hkeys : t.liveKeys = s.liveKeys := by unfold State.liveKeys; rw [liveTickets_of_kitchen hk.stations hk.overflow]
  refine ⟨kitchenFits_of_kitchen h.kitchen hk.stations hk.overflow hk.counter,
    ⟨hk.freeList ▸ h.lists.freeOnce, fun u => ?_, hk.closedList ▸ h.lists.closedOnce, fun u => ?_, fun u hu => ?_⟩,
    ⟨fun u p hp => ?_, fun p x hx => ?_⟩, ⟨fun u => ?_, fun p e he hgone => ?_⟩, hcache⟩
  · rw [hk.freeList, (hsame u).1]; exact h.lists.free u
  · rw [hk.closedList, (hsame u).1]; exact h.lists.closed u
  · rw [hk.phase, (hsame u).1] at hu; exact hformatted u (h.lists.formatted u hu)
  · rw [(hsame u).2.1] at hp; rw [(hsame u).1, hold_of_holds hk.holds]; exact h.holds.holder u p hp
  · rw [hold_of_holds hk.holds] at hx; rw [(hsame _).2.1]; exact h.holds.hold p x hx
  · unfold liveOf; rw [(hsame u).2.2, hkeys]; exact h.live.live u
  · rw [station_of_stations hk.stations] at he; rw [(hsame _).1]; exact h.live.recalls p e he hgone

/-- A slot turns, and the slot fields of tabs in use with it. -/
theorem Sound.slotTurns (h : Sound s) (hk : OnlyCache s t) {i : SlotId} {x : CacheSlot} {rest : List MemOp} (hslot : SlotBecomes s t i x)
    (hsound : SlotSound x) (hdir : ∀ u, t.dir u = { s.dir u with slot := turnedField s i x u })
    (hfresh : ∀ u, names x u = true → (s.dir u).slot = some i ∨
      (s.dir u).slot = none ∧ (s.dir u).state ≠ .free ∧ (s.dir u).state ≠ .damaged)
    (hold : (memoryOps s).Perm (slotOp i (s.slot i).state ++ rest)) (hnew : (memoryOps t).Perm (slotOp i x.state ++ rest))
    (haudits : ∀ u, MemOp.auditRead u ∉ t.memQueue) : Sound t := by
  refine h.recached hk (fun u => ⟨_, hdir u⟩) (fun u hu => ?_)
    (h.cache.becomes hslot hsound (fun u => by rw [hdir u]) (fun u hu => ?_) (fun u hu => ?_) hold hnew haudits)
  · have hx : names x u = false := by
      rw [Bool.eq_false_iff]
      intro hx
      rcases hfresh u hx with hi | ⟨-, hfree, -⟩
      · rw [hu] at hi; cases hi
      · rw [hu] at hfree; exact hfree rfl
    rw [hdir u, hu]
    unfold turnedField
    rw [hx, hu]
    rfl
  · exact (hfresh u hu).symm.imp And.left id
  · rw [hdir u] at hu ⊢
    have hstate : (s.dir u).state = .damaged := hu
    have hnone := h.cache.damaged u hstate
    change turnedField s i x u = none
    unfold turnedField
    rw [hnone]
    by_cases hx : names x u = true
    · rcases hfresh u hx with hi | ⟨-, -, hne⟩
      · rw [hnone] at hi; cases hi
      · exact absurd hstate hne
    · rw [if_neg hx]; simp

/-- The slot names the tabs that it named: the slot fields stay. -/
theorem CacheAgree.turnedField_same (h : CacheAgree s) {i : SlotId} {x : CacheSlot} {u : Nat} (hnames : names x u = names (s.slot i) u) :
    turnedField s i x u = (s.dir u).slot := by
  unfold turnedField
  rw [hnames]
  by_cases hx : names (s.slot i) u = true
  · rw [if_pos hx, (h.names_iff i u).1 hx]
  · rw [if_neg hx, if_neg fun e => hx ((h.names_iff i u).2 e)]

/-- The tab that a slot holds is no longer named by it, and another may be: the entries of both. -/
theorem Sound.turnedField_leaves (h : Sound s) {i : SlotId} {x : CacheSlot} (hincoming : (s.slot i).incoming = .none) (hx : ∀ u, names x u = false)
    (u : Nat) : turnedField s i x u = if (s.slot i).tab = some u then none else (s.dir u).slot := by
  have hiff : (s.dir u).slot = some i ↔ (s.slot i).tab = some u := by
    rw [h.cache.slot u i, hincoming]; simp
  unfold turnedField
  rw [hx u]
  by_cases ht : (s.slot i).tab = some u
  · simp [ht, hiff.2 ht]
  · simp [ht, mt hiff.1 ht]

/-- A slot with no operation and nothing coming in is cleared, and its tab uncached (R23, R24). -/
theorem Sound.uncacheCleared (h : Sound s) {i : SlotId} (hstate : (s.slot i).state = .empty ∨ (s.slot i).state = .ready) :
    Sound ((s.uncache i).setSlot i CacheSlot.cleared) := by
  have hno : slotOp i (s.slot i).state = [] := by rcases hstate with e | e <;> rw [e] <;> rfl
  have hincoming : (s.slot i).incoming = .none := (h.cache.slots i).incoming (by rcases hstate with e | e <;> rw [e] <;> nofun)
  obtain ⟨directory, hframe⟩ := uncache_frame s i
  refine h.slotTurns (rest := memoryOps s) (by rw [hframe]; exact {}) (slotBecomes_of (u := s.uncache i) rfl (by rw [hframe])) Frames.slotSound_cleared
    (fun u => ?_) (fun u hu => by rw [names_cleared] at hu; cases hu) (by rw [hno]; exact .refl _) (by rw [hframe]; exact .refl _)
    (by rw [hframe]; exact h.cache.operations.audits)
  rw [h.turnedField_leaves hincoming names_cleared]
  change (s.uncache i).dir u = _
  rw [uncache_dir]
  split <;> rfl

end Sys2Proof.TabAgreement
end

section
/-! PROOFS. The agreement of the tables under the changes of a tab's state, of its holder and of its record (R6 to R9, R101 to R106). -/

namespace Sys2Proof.TabAgreement

-- One theorem after another: as many checks at once take a thread each.
set_option Elab.async false

open Sys2Proof Sys2Proof.Machine Sys2Proof.Statements Sys2Proof.Invariants Sys2Proof.AtSlot Sys2Proof.OrderRules Sys2Proof.FreeTabs

variable {s t : State}

/-! ### Records (R26, R27) -/

theorem Sound.setSlot (h : Sound s) {i : SlotId} {x : CacheSlot} (hstate : x.state = (s.slot i).state) (htab : x.tab = (s.slot i).tab)
    (hincoming : x.incoming = (s.slot i).incoming) (hsound : SlotSound x) : Sound (s.setSlot i x) :=
  h.recached {} (fun u => ⟨(s.dir u).slot, rfl⟩) (fun _ hu => hu)
    (h.cache.setSlot (slotBecomes_of (u := s) rfl rfl) (fun _ => rfl) rfl rfl hstate htab hincoming hsound)

theorem Sound.setWaits (h : Sound s) {i : SlotId} {waits : List Waiter} (hsound : SlotSound { s.slot i with waits := waits }) :
    Sound (s.setSlot i { s.slot i with waits := waits }) :=
  h.setSlot rfl rfl rfl hsound

theorem Sound.popWaiter (h : Sound s) (i : SlotId) : Sound (s.popWaiter i) :=
  h.setWaits (slotSound_fewer (h.cache.slots i) fun _ hw => List.mem_of_mem_tail hw)

theorem Sound.writeRecord (h : Sound s) {i : SlotId} {r r' : TabRecord} (hrec : (s.slot i).record = some r) (htab : r'.tab = r.tab)
    (hready : (s.slot i).state = .ready) : Sound (s.writeRecord i r') :=
  h.setSlot rfl rfl rfl (slotSound_rewrite (h.cache.slots i) hrec htab (.inl hready))

theorem Sound.dropPlan (h : Sound s) {i : SlotId} (hready : (s.slot i).state = .ready) : Sound (s.dropPlan i) := by
  unfold State.dropPlan
  split
  · exact h
  · rename_i r hrec
    split
    · exact h
    · exact h.writeRecord hrec rfl hready

/-! ### Holds (R101 to R108) -/

/-- Nothing has changed but the directory, the holds, the closed list and what the agreement does not look at. -/
structure OnlyDirectory (s t : State) : Prop where
  phase      : t.phase = s.phase := by simp
  freeList   : t.freeList = s.freeList := by simp
  stations   : t.stations = s.stations := by simp
  overflow   : t.overflow = s.overflow := by simp
  counter    : t.ticketCounter = s.ticketCounter := by simp
  slots      : t.slots = s.slots := by simp
  memQueue   : t.memQueue = s.memQueue := by simp
  memRunning : t.memRunning = s.memRunning := by simp

theorem OnlyDirectory.keys (hk : OnlyDirectory s t) : t.liveKeys = s.liveKeys := by
  unfold State.liveKeys
  rw [liveTickets_of_kitchen hk.stations hk.overflow]

theorem OnlyDirectory.recalls (hk : OnlyDirectory s t) (p : Port) (e : RecallEntry) (he : e ∈ (t.station p).recalls) :
    e ∈ (s.station p).recalls := by rwa [station_of_stations hk.stations] at he

theorem endHold_spec (s : State) (tab : Nat) : EntryBecomes s (s.endHold tab) tab { s.dir tab with holder := none } ∧
    (∀ q, (s.dir tab).holder = some q → HoldBecomes s (s.endHold tab) q none) ∧
    ((s.dir tab).holder = none → ∀ p, (s.endHold tab).hold p = s.hold p) := by
  cases hh : (s.dir tab).holder with
  | none =>
    rw [show s.endHold tab = s by unfold State.endHold; rw [hh]]
    exact ⟨⟨by rw [← hh], fun _ _ => rfl⟩, nofun, fun _ _ => rfl⟩
  | some p =>
    rw [show s.endHold tab = (s.setHold p none).setDir tab { s.dir tab with holder := none } by unfold State.endHold; rw [hh]]
    refine ⟨entryBecomes_of (u := s.setHold p none) rfl fun _ _ => rfl, fun q hq => ?_, nofun⟩
    cases hq
    exact ⟨State.hold_setHold_self s p none, fun q hq => State.hold_setHold_other s hq none⟩

/-- The entry of a tab changes once more. -/
theorem entryBecomes_setDir {tab : Nat} {e : DirEntry} (h : EntryBecomes s t tab e) (e' : DirEntry) : EntryBecomes s (t.setDir tab e') tab e' :=
  entryBecomes_of (u := t) rfl h.2

/-- A tab in use loses its holder and may change its state; the closed list goes with it. -/
theorem Sound.holderEnds (h : Sound s) (hk : OnlyDirectory s t) {tab : Nat} {e : DirEntry} (he : EntryBecomes s t tab e)
    (huse : s.dir tab ≠ DirEntry.formatted) (hnew : e.state ≠ .free) (hholder : e.holder = none) (hlive : e.live = (s.dir tab).live)
    (hslot : e.slot = (s.dir tab).slot) (hdamaged : e.state = .damaged → e.slot = none)
    (hheld : ∀ q, (s.dir tab).holder = some q → HoldBecomes s t q none) (hfree : (s.dir tab).holder = none → ∀ p, t.hold p = s.hold p)
    (honce : t.closedList.Nodup) (hclosed : ∀ u, u ∈ t.closedList ↔ if u = tab then e.state = .closed else u ∈ s.closedList) : Sound t :=
  ⟨kitchenFits_of_kitchen h.kitchen hk.stations hk.overflow hk.counter,
    h.lists.entry he hk.phase hk.freeList huse hnew honce hclosed, h.holds.ends he hholder hheld hfree,
    h.live.entry he hlive (fun _ => hnew) (.of_eq hk.keys) hk.recalls,
    h.cache.entry_same he hslot hdamaged (slot_of_slots hk.slots) hk.memQueue hk.memRunning⟩

theorem mem_closedList_same (h : ListsAgree s) {tab : Nat} {state : TabState} (hstate : state = .closed ↔ (s.dir tab).state = .closed) (u : Nat) :
    u ∈ s.closedList ↔ if u = tab then state = .closed else u ∈ s.closedList := by
  by_cases hu : u = tab
  · rw [if_pos hu, hu, h.closed, hstate]
  · rw [if_neg hu]

/-- The change to CLOSED of a TENDERING tab (R7). -/
theorem Sound.closeTab (h : Sound s) {tab : Nat} (hstate : (s.dir tab).state = .tendering) : Sound (s.closeTab tab) := by
  obtain ⟨he, hheld, hfree⟩ := endHold_spec s tab
  have hnot : tab ∉ s.closedList := fun hin => by rw [h.lists.closed, hstate] at hin; cases hin
  unfold State.closeTab
  dsimp only
  refine h.holderEnds (t := { (s.endHold tab).setDir tab { (s.endHold tab).dir tab with state := .closed } with
      closedList := (s.endHold tab).closedList ++ [tab] }) {} (tab := tab) (e := { s.dir tab with holder := none, state := .closed }) ?_
    (ne_formatted_of_state (by rw [hstate]; nofun)) nofun rfl rfl rfl nofun hheld hfree ?_ fun u => ?_
  · have h2 := entryBecomes_setDir he { (s.endHold tab).dir tab with state := .closed }
    rw [he.1] at h2
    rw [he.1]
    exact h2
  · rw [State.endHold_closedList]
    exact List.nodup_append.2 ⟨h.lists.closedOnce, List.nodup_singleton tab, fun a ha b hb => by
      rw [List.mem_singleton.1 hb]; rintro rfl; exact hnot ha⟩
  · rw [State.endHold_closedList]
    by_cases hu : u = tab
    · simp [hu]
    · simp [hu]

/-- A TENDERING tab goes back to OPEN, with no holder (R126). -/
theorem Sound.reopen (h : Sound s) {tab : Nat} (hstate : (s.dir tab).state = .tendering) :
    Sound ((s.endHold tab).setDir tab { (s.endHold tab).dir tab with state := .opened }) := by
  obtain ⟨he, hheld, hfree⟩ := endHold_spec s tab
  have h2 := entryBecomes_setDir he { (s.endHold tab).dir tab with state := .opened }
  rw [he.1] at h2 ⊢
  refine h.holderEnds {} h2 (ne_formatted_of_state (by rw [hstate]; nofun)) nofun rfl rfl rfl nofun hheld hfree ?_ fun u => ?_
  · simpa using h.lists.closedOnce
  · change u ∈ (s.endHold tab).closedList ↔ _
    rw [State.endHold_closedList]
    exact mem_closedList_same h.lists (by rw [hstate]; exact ⟨nofun, nofun⟩) u

/-- A till takes the hold of a tab that it alone may hold (R103, R108). -/
theorem Sound.takes (h : Sound s) (hk : OnlyDirectory s t) {tab : Nat} {p : Port} {x : Hold} {e : DirEntry} (he : EntryBecomes s t tab e)
    (hhold : HoldBecomes s t p (some x)) (hx : x.tab = tab) (hholder : e.holder = some p) (hstate : e.state = .tendering)
    (hold : (s.dir tab).state = .opened ∨ (s.dir tab).state = .tendering) (hnone : (s.dir tab).holder = none) (hidle : s.hold p = none)
    (hlive : e.live = (s.dir tab).live) (hslot : e.slot = (s.dir tab).slot) (hlist : t.closedList = s.closedList) : Sound t :=
  ⟨kitchenFits_of_kitchen h.kitchen hk.stations hk.overflow hk.counter,
    h.lists.entry_sameLists he hk.phase hk.freeList (ne_formatted_of_state (by rcases hold with e | e <;> rw [e] <;> nofun))
      (by rw [hstate]; nofun) hlist (by rw [hstate]; rcases hold with e | e <;> simp [e]),
    h.holds.takes he hhold hx hholder hstate hnone hidle,
    h.live.entry he hlive (fun _ => by rw [hstate]; nofun) (.of_eq hk.keys) hk.recalls,
    h.cache.entry_same he hslot (fun hd => by rw [hstate] at hd; cases hd) (slot_of_slots hk.slots) hk.memQueue hk.memRunning⟩

theorem takeHold_spec (s : State) (p : Port) (tab : Nat) : EntryBecomes s (s.takeHold p tab) tab { s.dir tab with holder := some p } ∧
    HoldBecomes s (s.takeHold p tab) p (some { tab := tab, deadline := s.holdDeadline }) :=
  ⟨entryBecomes_of (u := s.setHold p (some { tab := tab, deadline := s.holdDeadline })) rfl fun _ _ => rfl,
    State.hold_setHold_self _ _ _, fun _ hq => State.hold_setHold_other _ hq _⟩

/-- RESUME takes an orphaned tender (R108). -/
theorem Sound.takeHold (h : Sound s) {p : Port} {tab : Nat} (hstate : (s.dir tab).state = .tendering) (hnone : (s.dir tab).holder = none)
    (hidle : s.hold p = none) : Sound (s.takeHold p tab) := by
  obtain ⟨he, hhold⟩ := takeHold_spec s p tab
  exact h.takes {} he hhold rfl rfl hstate (.inr hstate) hnone hidle rfl rfl (by simp)

/-- A new split's till takes the OPEN tab, which goes to TENDERING (R103, R123). -/
theorem Sound.takeOpen (h : Sound s) {p : Port} {tab : Nat} (hstate : (s.dir tab).state = .opened) (hidle : s.hold p = none) :
    Sound ((s.takeHold p tab).setDir tab { (s.takeHold p tab).dir tab with state := .tendering }) := by
  obtain ⟨he, hhold⟩ := takeHold_spec s p tab
  have h2 := entryBecomes_setDir he { (s.takeHold p tab).dir tab with state := .tendering }
  rw [he.1] at h2 ⊢
  exact h.takes {} h2 hhold rfl rfl rfl (.inl hstate) (h.holds.unheld (by rw [hstate]; nofun)) hidle rfl rfl (by simp)

/-- The deadline of a hold is restarted (R104). -/
theorem Sound.restartHold (h : Sound s) (p : Port) : Sound (s.restartHold p) := by
  unfold State.restartHold
  split
  · exact h
  · rename_i x hx
    refine ⟨kitchenFits_of_kitchen h.kitchen rfl rfl rfl, h.lists.same (fun _ => rfl) rfl rfl rfl,
      ⟨fun u q hq => ?_, fun q y hy => ?_⟩, h.live.same (fun _ => rfl) .rfl fun _ _ he => he,
      h.cache.sameDir (fun _ => rfl) (fun _ => rfl) rfl rfl⟩
    · obtain ⟨hstate, hmap⟩ := h.holds.holder u q hq
      refine ⟨hstate, ?_⟩
      by_cases hqp : q = p
      · subst hqp; rw [State.hold_setHold_self]; rw [hx] at hmap; exact hmap
      · rw [State.hold_setHold_other _ hqp]; exact hmap
    · by_cases hqp : q = p
      · subst hqp; rw [State.hold_setHold_self] at hy; cases hy; exact h.holds.hold q x hx
      · rw [State.hold_setHold_other _ hqp] at hy; exact h.holds.hold q y hy

/-- An entry changes in its paid-in-part mark alone. -/
theorem Sound.payInPart (h : Sound s) {tab : Nat} (huse : s.dir tab ≠ DirEntry.formatted) :
    Sound (s.setDir tab { s.dir tab with paidInPart := true }) := by
  have he : EntryBecomes s (s.setDir tab { s.dir tab with paidInPart := true }) tab { s.dir tab with paidInPart := true } :=
    entryBecomes_of (u := s) rfl fun _ _ => rfl
  refine ⟨kitchenFits_of_kitchen h.kitchen rfl rfl rfl, h.lists.entry_sameLists he rfl rfl huse (h.lists.not_free huse) rfl .rfl,
    h.holds.entry he (fun _ => rfl) rfl fun hne => ?_, h.live.entry he rfl (fun hf => hf) .rfl fun _ _ hx => hx,
    h.cache.entry_same he rfl (h.cache.damaged tab) (fun _ => rfl) rfl rfl⟩
  obtain ⟨p, hp⟩ := Option.ne_none_iff_exists'.1 hne
  exact (h.holds.holder tab p hp).1

/-- A hold ends by expiry, by a port reset or by a change of group (R106, R111). -/
theorem Sound.releaseHold (h : Sound s) (p : Port) (cause : HoldCause) : Sound (s.releaseHold p cause) := by
  unfold State.releaseHold
  split
  · exact h
  · rename_i x hx
    have hholder := h.holds.hold p x hx
    have hstate := (h.holds.holder _ _ hholder).1
    have hends : ∀ e : DirEntry, e.holder = none → (e.state = .tendering ∨ e.state = .opened) → e.live = (s.dir x.tab).live →
        e.slot = (s.dir x.tab).slot → Sound ((s.setHold p none).setDir x.tab e) := fun e hnone hopen hlive hslot => by
      refine h.holderEnds {} (entryBecomes_of (u := s.setHold p none) rfl fun _ _ => rfl) (ne_formatted_of_holder hholder)
        (by rcases hopen with e | e <;> rw [e] <;> nofun) hnone hlive hslot (fun hd => by rcases hopen with e | e <;> rw [e] at hd <;> cases hd)
        (fun q hq => ?_) (fun hn => by rw [hholder] at hn; cases hn) h.lists.closedOnce
        (mem_closedList_same h.lists (by rcases hopen with e | e <;> simp [e, hstate]))
      rw [hholder] at hq
      cases hq
      exact ⟨State.hold_setHold_self s p none, fun q hq => State.hold_setHold_other s hq none⟩
    refine Sound.same ?_ (.raise _ _)
    dsimp only
    split
    · exact hends _ rfl (.inl hstate) rfl rfl
    · have hopened := hends { s.dir x.tab with holder := none, state := .opened } rfl (.inr rfl) rfl rfl
      split
      · exact hopened
      · rename_i i hi
        refine hopened.dropPlan ?_
        unfold State.readySlotOf at hi
        split at hi
        · cases hi
        · split at hi
          · rename_i hr; cases hi; exact hr.1
          · cases hi

/-! ### DAMAGED and FREE (R8, R9) -/

/-- The change to DAMAGED of a tab in use, when the cache agrees afterwards. -/
theorem Sound.damages (h : Sound s) {tab : Nat} {e : DirEntry} (huse : s.dir tab ≠ DirEntry.formatted) (he : EntryBecomes s t tab e)
    (hstate : e.state = .damaged) (hholder : e.holder = none) (hlive : e.live = (s.dir tab).live) (hphase : t.phase = s.phase)
    (hfreeList : t.freeList = s.freeList) (hclosed : t.closedList = s.closedList.filter (fun u => u ≠ tab))
    (hheld : ∀ q, (s.dir tab).holder = some q → HoldBecomes s t q none) (hfree : (s.dir tab).holder = none → t.holds = s.holds)
    (hstations : t.stations = s.stations) (hoverflow : t.overflow = s.overflow) (hcounter : t.ticketCounter = s.ticketCounter)
    (hcache : CacheAgree t) : Sound t := by
  refine ⟨kitchenFits_of_kitchen h.kitchen hstations hoverflow hcounter,
    h.lists.entry he hphase hfreeList huse (by rw [hstate]; nofun) (hclosed ▸ h.lists.closedOnce.filter _) fun u => ?_,
    h.holds.ends he hholder hheld fun hn p => hold_of_holds (hfree hn) p,
    h.live.entry he hlive (fun _ => by rw [hstate]; nofun) (.of_eq ?_) fun p x hx => by rwa [station_of_stations hstations] at hx, hcache⟩
  · rw [hclosed, hstate]
    by_cases hu : u = tab <;> simp [hu]
  · unfold State.liveKeys; rw [liveTickets_of_kitchen hstations hoverflow]

/-- An uncached tab in use becomes DAMAGED (R9, R40). -/
theorem Sound.damageTab (h : Sound s) {tab : Nat} (huse : s.dir tab ≠ DirEntry.formatted) (hslot : (s.dir tab).slot = none) :
    Sound (s.damageTab tab) := by
  obtain ⟨hself, hother, hheld, hfree, hclosed, hrest⟩ := State.damageTab_spec s tab
  generalize s.damageTab tab = v at hself hother hheld hfree hclosed hrest ⊢
  have hform : v = { s with directory := v.directory, holds := v.holds, closedList := v.closedList } :=
    congrArg (fun w : State => { w with directory := v.directory, holds := v.holds, closedList := v.closedList }) hrest
  have hsame : OnlyDirectory s v := by rw [hform]; exact ⟨rfl, rfl, rfl, rfl, rfl, rfl, rfl, rfl⟩
  exact h.damages huse ⟨hself, hother⟩ rfl rfl rfl hsame.phase hsame.freeList hclosed hheld hfree hsame.stations hsame.overflow hsame.counter
    (h.cache.entry_same ⟨hself, hother⟩ hslot.symm (fun _ => rfl) (slot_of_slots hsame.slots) hsame.memQueue hsame.memRunning)

/-- The change to FREE of a tab with no holder and no live ticket, when the cache agrees afterwards. -/
theorem Sound.frees (h : Sound s) {tab : Nat} (huse : s.dir tab ≠ DirEntry.formatted) (hholder : (s.dir tab).holder = none)
    (hlive : (s.dir tab).live = 0) (hfreed : Freed s t tab) (fits : KitchenFits t) (hphase : t.phase = s.phase) (hholds : t.holds = s.holds)
    (hoverflow : t.overflow = s.overflow) (hcache : CacheAgree t) : Sound t := by
  obtain ⟨he, hfreeList, hclosed, hstations, -⟩ := hfreed
  obtain ⟨htab, hold, hready⟩ := h.lists.inUse huse
  have hkeys : t.liveKeys = s.liveKeys := by simp only [State.liveKeys, State.liveTickets, hstations, hoverflow]
  refine ⟨fits, ⟨?_, fun u => ?_, hclosed ▸ h.lists.closedOnce.filter _, fun u => ?_, fun u hu => ?_⟩,
    h.holds.ends he rfl (fun q hq => by rw [hholder] at hq; cases hq) (fun _ p => hold_of_holds hholds p),
    ⟨fun u => ?_, fun p e hin hgone => ?_⟩, hcache⟩
  · rw [hfreeList]
    refine List.nodup_append.2 ⟨h.lists.freeOnce, List.nodup_singleton tab, fun a ha b hb => ?_⟩
    rw [List.mem_singleton.1 hb]
    rintro rfl
    exact hold ((h.lists.free a).1 ha).2
  · rw [hfreeList, List.mem_append, h.lists.free, List.mem_singleton]
    by_cases hu : u = tab
    · subst hu; rw [he.1]; exact iff_of_true (.inr rfl) ⟨htab, rfl⟩
    · rw [he.2 u hu]; simp [hu]
  · rw [hclosed]
    by_cases hu : u = tab
    · subst hu; rw [he.1]; simp [DirEntry.formatted]
    · rw [he.2 u hu, ← h.lists.closed]; simp [hu]
  · by_cases hut : u = tab
    · rw [hut, he.1]
    · rw [he.2 u hut] at hu ⊢; rw [hphase] at hu; exact h.lists.formatted u hu
  · unfold liveOf
    rw [hkeys]
    change _ = liveOf s u
    by_cases hu : u = tab
    · subst hu; rw [he.1, ← h.live.live, hlive]; rfl
    · rw [he.2 u hu]; exact h.live.live u
  · rw [hstations] at hin
    obtain ⟨e0, hin0, rfl⟩ := List.mem_map.1 hin
    by_cases hu : e0.ticket.tab = tab
    · rw [if_pos hu] at hgone; cases hgone
    · rw [if_neg hu] at hgone ⊢; rw [he.2 _ hu]; exact h.live.recalls p e0 hin0 hgone

/-- A DAMAGED tab with no live ticket becomes FREE (R15). -/
theorem Sound.freeDamaged (h : Sound s) {tab : Nat} (hstate : (s.dir tab).state = .damaged) (hlive : (s.dir tab).live = 0) :
    Sound (s.freeTab tab) := by
  have huse := ne_formatted_of_state (s := s) (tab := tab) (by rw [hstate]; nofun)
  have hholder := h.holds.unheld (tab := tab) (by rw [hstate]; nofun)
  have fits := ((Keeps.refl (ok := True) s).freeTab tab).kitchen h.kitchen
  rw [freeTab_eq hholder hlive] at fits ⊢
  have hfreed : Freed s _ tab := freed_of (t := { s.setDir tab DirEntry.formatted with
      closedList := s.closedList.filter (fun u => u ≠ tab), freeList := s.freeList ++ [tab],
      stations := s.stations.map (markGone tab), audit := s.audit.map (auditFreed tab) }) rfl rfl rfl rfl rfl
  exact h.frees huse hholder hlive hfreed fits rfl rfl rfl
    (h.cache.entry_same hfreed.entry (h.cache.damaged tab hstate).symm nofun (fun _ => rfl) rfl rfl)

/-- A tab at its READY slot, with no holder and no live ticket, becomes FREE and the slot EMPTY (R8, R28). -/
theorem Sound.freeAtSlot (h : Sound s) {tab : Nat} {i : SlotId} (hready : (s.slot i).state = .ready) (htab : (s.slot i).tab = some tab)
    (hstate : (s.dir tab).state ≠ .tendering) (hlive : (s.dir tab).live = 0) : Sound (s.freeAtSlot i tab) := by
  have hslot := h.cache.entry htab
  have huse := ne_formatted_of_slot hslot
  have hholder := h.holds.unheld hstate
  have fits := ((Keeps.refl (ok := True) s).freeAtSlot i tab).kitchen h.kitchen
  unfold State.freeAtSlot State.emptySlot State.refuseWaiters at fits ⊢
  obtain ⟨ports, hframe⟩ := State.refuseWaiters_frame .noSuchTab ((s.freeTab tab).slot i).waits (s.freeTab tab)
  rw [hframe, freeTab_eq hholder hlive] at fits ⊢
  generalize hv : State.setSlot _ i CacheSlot.cleared = v at fits ⊢
  have hincoming : (s.slot i).incoming = .none := (h.cache.slots i).incoming (by rw [hready]; nofun)
  have hfreed : Freed s v tab := by subst hv; exact freed_of rfl rfl rfl rfl rfl
  have hslots : SlotBecomes s v i CacheSlot.cleared := by subst hv; exact slotBecomes_of (u := s) rfl rfl
  refine h.frees huse hholder hlive hfreed fits (by subst hv; rfl) (by subst hv; rfl) (by subst hv; rfl)
    (h.cache.becomes (rest := memoryOps s) hslots Frames.slotSound_cleared (fun u => ?_) (fun u hu => by rw [names_cleared] at hu; cases hu)
      (fun u hu => ?_) (by rw [hready]; exact .refl _) (by subst hv; exact .refl _) (by subst hv; exact h.cache.operations.audits))
  · rw [h.turnedField_leaves hincoming names_cleared, htab]
    by_cases hu : u = tab
    · rw [hu, hfreed.entry.1, if_pos rfl]; rfl
    · rw [hfreed.entry.2 u hu, if_neg fun e => hu (Option.some.inj e).symm]
  · by_cases hut : u = tab
    · rw [hut, hfreed.entry.1]; rfl
    · rw [hfreed.entry.2 u hut] at hu ⊢; exact h.cache.damaged u hu

end Sys2Proof.TabAgreement
end

section
/-! PROOFS. The agreement of the tables when requests execute at their slots (chapters 3, 7 and 8), and when the head of a wait list does (R25). -/

namespace Sys2Proof.TabAgreement

-- One theorem after another: as many checks at once take a thread each.
set_option Elab.async false

open Sys2Proof Sys2Proof.Machine Sys2Proof.Statements Sys2Proof.Invariants Sys2Proof.AtSlot Sys2Proof.OrderRules Sys2Proof.FreeTabs

variable {s t : State}

/-! ### ORDER (R54 to R57) -/

/-- What a commit leaves of the tables: the new tickets among the live ones, and the tab's count raised by their number. -/
theorem commitOrder_tables {u judged before : State} (p : Port) (rush : Bool) (r : TabRecord) (g : Group) (existing : List TabLine)
    (lines : List OrderLine) (hjudged : PlacesTaken judged u []) (k : KitchenFits u) : ∃ (v : State) (l : List (Nat × Nat)),
    OnlyKitchen u v ∧ KitchenFits v ∧ (∀ k ∈ l, k.2 = r.tab) ∧ v.liveKeys.Perm (l ++ u.liveKeys) ∧
    (∀ q, (v.station q).recalls = (u.station q).recalls) ∧
    SameTables (v.raiseLive r.tab l.length) (commitOrder before u p rush r (judged.planOrder g existing lines)).state := by
  obtain ⟨hfits, hkeys⟩ := createTickets_kept judged r.tab p rush
    (lineNumberOf (highestLine r.lines) (judged.planOrder g existing lines).accepted)
    (judged.formTickets (passedLines (judged.checkLines g existing [] 0 lines))) hjudged k
  obtain ⟨hrecalls, stations, overflow, counter, hframe⟩ := createTickets_frame r.tab p rush
    (lineNumberOf (highestLine r.lines) (judged.planOrder g existing lines).accepted)
    (judged.judgeTickets [] (judged.formTickets (passedLines (judged.checkLines g existing [] 0 lines)))) u
  have htickets : (judged.planOrder g existing lines).tickets =
      judged.judgeTickets [] (judged.formTickets (passedLines (judged.checkLines g existing [] 0 lines))) := rfl
  unfold commitOrder
  dsimp only
  rw [htickets]
  generalize createTickets r.tab p rush (lineNumberOf (highestLine r.lines) (judged.planOrder g existing lines).accepted)
    (judged.judgeTickets [] (judged.formTickets (passedLines (judged.checkLines g existing [] 0 lines)))) u = c at hfits hkeys hrecalls hframe ⊢
  obtain ⟨items, hsell⟩ := sell_frame (judged.planOrder g existing lines).accepted c.1
  refine ⟨c.1, c.2.map (fun x => (x.1, r.tab)), .of_frame hframe, hfits, fun k hk => ?_, hkeys, hrecalls, ?_⟩
  · obtain ⟨x, -, rfl⟩ := List.mem_map.1 hk
    rfl
  · rw [hsell, List.length_map]
    have hsold : SameTables (c.1.raiseLive r.tab c.2.length) (State.raiseLive { c.1 with items := items } r.tab c.2.length) :=
      ⟨rfl, rfl, rfl, rfl, rfl, rfl, rfl, rfl, rfl, rfl, rfl⟩
    exact hsold.trans (.latchItems _ _ _)

theorem SameTables.setSlot (h : SameTables s t) (i : SlotId) (x : CacheSlot) : SameTables (s.setSlot i x) (t.setSlot i x) := by
  have hslots : (t.setSlot i x).slots = (s.setSlot i x).slots := by
    change t.slots.set i.val x = s.slots.set i.val x
    rw [h.slots]
  exact ⟨h.phase, h.directory, h.freeList, h.closedList, h.holds, h.stations, h.overflow, h.counter, hslots, h.memQueue, h.memRunning⟩

/-- An ORDER executes for the tab of its READY slot. -/
theorem Sound.performOrder (h : Sound s) {i : SlotId} (p : Port) {tab : Nat} (rush : Bool) (lines : List OrderLine)
    (hready : (s.slot i).state = .ready) (htab : (s.slot i).tab = some tab) : Sound (performOrder i p tab rush lines s) := by
  unfold Machine.performOrder
  split
  · exact h.same (.refuse _ _ _ _)
  · split
    · exact h
    · rename_i r hrec
      dsimp only
      split
      · exact h.same (.reply _ _ _ _)
      · refine Sound.same ?_ (.reply _ _ _ _)
        have hown : r.tab = tab := by
          obtain ⟨r', hr', ht'⟩ := (h.cache.slots i).record (.inl hready)
          rw [hrec] at hr'
          cases hr'
          rw [htab] at ht'
          exact (Option.some.inj ht').symm
        obtain ⟨v, l, hk, fits, hl, hkeys, hrecalls, hsame⟩ := commitOrder_tables (before := s) p rush r r.group r.lines lines
          (PlacesTaken.none s) h.kitchen
        have huse : s.dir r.tab ≠ DirEntry.formatted := ne_formatted_of_slot (h.cache.entry (hown ▸ htab))
        have hcommitted := (h.ticketsEnter hk fits huse hl hkeys fun q e he => hrecalls q ▸ he).same hsame
        have hslot : (commitOrder s s p rush r (s.planOrder r.group r.lines lines)).state.slot i = s.slot i := by
          rw [slot_of_slots hsame.slots]
          exact slot_of_slots hk.slots i
        exact hcommitted.writeRecord (r := r) (by rw [hslot]; exact hrec) rfl (by rw [hslot]; exact hready)

/-- A FREE tab is opened in a cleared slot, with live tickets of its own (R3). -/
theorem Sound.opens (h : Sound s) {i : SlotId} {tab n : Nat} {rest : List Nat} {g : Group} {x : CacheSlot} {r : TabRecord}
    {l : List (Nat × Nat)} (hphase : s.phase ≠ .starting) (hclear : s.slot i = CacheSlot.cleared) (hfree : s.freeList = tab :: rest)
    (he : EntryBecomes s t tab { state := .opened, group := some g, holder := none, paidInPart := false, live := n, slot := some i })
    (hslots : SlotBecomes s t i x)
    (hx : x.state = .ready ∧ x.incoming = .none ∧ x.record = some r ∧ r.tab = tab ∧ x.tab = some tab ∧ x.waits = [])
    (hrest : t.freeList = rest) (fits : KitchenFits t) (hl : ∀ k ∈ l, k.2 = tab) (hn : n = l.length) (hkeys : t.liveKeys.Perm (l ++ s.liveKeys))
    (hrecalls : ∀ p, (t.station p).recalls = (s.station p).recalls) (hsame : t.phase = s.phase ∧ t.closedList = s.closedList ∧
      t.holds = s.holds ∧ t.memQueue = s.memQueue ∧ t.memRunning = s.memRunning) : Sound t := by
  obtain ⟨hp, hclosed, hholds, hqueue, hrunning⟩ := hsame
  obtain ⟨hready, hincoming, hrec, hnumber, hxtab, hnobody⟩ := hx
  obtain ⟨htab, hstate⟩ := (h.lists.free tab).1 (by rw [hfree]; exact List.mem_cons_self)
  have hformatted := h.lists.formatted tab (.inl hstate)
  have honce := h.lists.freeOnce
  rw [hfree, List.nodup_cons] at honce
  have hholder : (s.dir tab).holder = none := by rw [hformatted]; rfl
  obtain ⟨hown, hothers⟩ := liveOf_append (s := s) (t := t) hl hkeys
  refine ⟨fits, ⟨hrest ▸ honce.2, fun u => ?_, hclosed ▸ h.lists.closedOnce, fun u => ?_, fun u hu => ?_⟩,
    h.holds.entry he (hold_of_holds hholds) hholder.symm fun hne => absurd rfl hne, ⟨fun u => ?_, fun q e hin hgone => ?_⟩,
    h.cache.becomes (rest := memoryOps s) hslots
      (slotSound_ready hready hincoming hrec (by rw [hxtab, hnumber]) (by rw [hnobody]; nofun)) (fun u => ?_) (fun u hu => ?_) (fun u hu => ?_)
      (by rw [hclear]; exact .refl _) (by rw [hready]; unfold memoryOps; rw [hqueue, hrunning]; exact .refl _)
      (by rw [hqueue]; exact h.cache.operations.audits)⟩
  · rw [hrest]
    by_cases hu : u = tab
    · subst hu; rw [he.1]; exact iff_of_false honce.1 fun e => nomatch e.2
    · rw [he.2 u hu, ← h.lists.free, hfree]; simp [hu]
  · rw [hclosed, h.lists.closed]
    by_cases hu : u = tab
    · subst hu; rw [he.1, hstate]; exact ⟨nofun, nofun⟩
    · rw [he.2 u hu]
  · rw [hp] at hu
    by_cases hut : u = tab
    · subst hut; rw [he.1, htab] at hu; simp [hphase] at hu
    · rw [he.2 u hut] at hu ⊢; exact h.lists.formatted u hu
  · by_cases hu : u = tab
    · rw [hu, he.1, hown, ← h.live.live, hformatted, hn]; exact (Nat.zero_add _).symm
    · rw [he.2 u hu, hothers u hu]; exact h.live.live u
  · rw [hrecalls] at hin
    by_cases hu : e.ticket.tab = tab
    · rw [hu, he.1]; nofun
    · rw [he.2 _ hu]; exact h.live.recalls q e hin hgone
  · have hnames : names x u = decide (tab = u) := by unfold names; rw [hxtab, hincoming]; simp
    have hnone : (s.dir u).slot ≠ some i := fun e => by
      rcases (h.cache.slot u i).1 e with hs | hs <;> (rw [hclear] at hs; cases hs)
    unfold turnedField
    rw [hnames, if_neg hnone]
    by_cases hu : u = tab
    · rw [hu, he.1]; simp
    · rw [he.2 u hu]; simp [Ne.symm hu]
  · have hut : tab = u := by
      rcases names_iff.1 hu with e | e
      · rw [hxtab] at e; exact Option.some.inj e
      · rw [hincoming] at e; cases e
    exact .inl (by rw [← hut, hformatted]; rfl)
  · by_cases hut : u = tab
    · rw [hut, he.1] at hu; cases hu
    · rw [he.2 u hut] at hu ⊢; exact h.cache.damaged u hu

theorem Sound.clearSlot (h : Sound s) {i : SlotId} (hclear : s.slot i = CacheSlot.cleared) : Sound (s.clearSlot i) := by
  unfold State.clearSlot
  rw [← hclear, State.setSlot_slot]
  exact h

/-- An ORDER for tab 0 executes in its cleared slot (R24). -/
theorem Sound.performNewOrder (h : Sound s) {i : SlotId} (p : Port) (rush : Bool) (lines : List OrderLine) (hphase : s.phase ≠ .starting)
    (hclear : s.slot i = CacheSlot.cleared) : Sound (performNewOrder i p rush lines s) := by
  unfold Machine.performNewOrder
  split
  · exact (h.clearSlot hclear).same (.refuse _ _ _ _)
  · rename_i g _
    dsimp only
    split
    · exact (h.clearSlot hclear).same (.reply _ _ _ _)
    · split
      · exact (h.clearSlot hclear).same (.refuse _ _ _ _)
      · rename_i tab rest hfree
        refine Sound.same ?_ (.reply _ _ _ _)
        obtain ⟨v, l, hk, fits, hl, hkeys, hrecalls, hsame⟩ := commitOrder_tables (u := s.openTab i tab rest g) (judged := s) (before := s) p rush
          (newRecord tab g p) g [] lines ⟨fun _ => rfl, rfl⟩ (kitchenFits_of_kitchen h.kitchen rfl rfl rfl)
        refine Sound.same (s := (v.raiseLive tab l.length).setSlot i
          { state := .ready, tab := some tab, incoming := .none, dirty := true, waits := []
            record := some (commitOrder s (s.openTab i tab rest g) p rush (newRecord tab g p) (s.planOrder g [] lines)).record }) ?_
          (hsame.setSlot i _)
        have hdir := dir_of_directory hk.directory
        have hself : v.dir tab = { state := .opened, group := some g, holder := none, paidInPart := false, live := 0, slot := some i } :=
          (hdir tab).trans (openTab_dir s i tab rest g).1
        refine h.opens (tab := tab) (n := l.length) (rest := rest) (g := g) hphase hclear hfree (entryBecomes_of (u := v) ?_ fun u hu => ?_)
          (slotBecomes_of (u := v) rfl hk.slots) ⟨rfl, rfl, rfl, rfl, rfl, rfl⟩ hk.freeList (kitchenFits_of_kitchen fits rfl rfl rfl) hl rfl
          hkeys hrecalls ⟨hk.phase, hk.closedList, hk.holds, hk.memQueue, hk.memRunning⟩
        · change (v.raiseLive tab l.length).directory = _
          unfold State.raiseLive
          rw [hself]
          simp only [Nat.zero_add]
        · rw [hdir u]
          exact (openTab_dir s i tab rest g).2 u hu

/-! ### VOID, SPLIT, CANCEL SPLIT, TENDER and RESUME -/

theorem Sound.performVoid (h : Sound s) {i : SlotId} (p : Port) (tab line : Nat) (hready : (s.slot i).state = .ready) :
    Sound (performVoid i p tab line s) := by
  unfold Machine.performVoid
  split
  · exact h.same (.refuse _ _ _ _)
  · split
    · exact h
    · rename_i r hrec
      split
      · exact h.same (.refuse _ _ _ _)
      · split
        · exact h.same (.refuse _ _ _ _)
        · rename_i l _ _
          unfold voidLine
          dsimp only
          refine Sound.same ?_ (.reply _ _ _ _)
          have hkitchen := h.kitchenVoid r.tab l l.number
          have hslot : (s.kitchenVoid l.number (s.voidFate r.tab l)).slot i = s.slot i := by
            obtain ⟨ports, directory, stations, overflow, hframe, -⟩ := VoidRules.kitchenVoid_frame s l.number (s.voidFate r.tab l)
            rw [hframe]; rfl
          generalize s.kitchenVoid l.number (s.voidFate r.tab l) = v at hkitchen hslot ⊢
          have hreturned : ∀ b : Bool, Sound (if b then v.mapTracking l.item (returnStock l.quantity) else v) ∧
              (if b then v.mapTracking l.item (returnStock l.quantity) else v).slot i = s.slot i := fun b => by
            cases b with
            | true => exact ⟨hkitchen.same (.mapTracking _ _ _), (slot_of_slots (SameTables.mapTracking v _ _).slots i).trans hslot⟩
            | false => exact ⟨hkitchen, hslot⟩
          obtain ⟨hstock, hkept⟩ := hreturned ((s.voidFate r.tab l).isVoid && s.returnsStock l.item l.quantity)
          generalize (if ((s.voidFate r.tab l).isVoid && s.returnsStock l.item l.quantity) = true then
            v.mapTracking l.item (returnStock l.quantity) else v) = w at hstock hkept ⊢
          have hlatched := (slot_of_slots (SameTables.latchItems w s [l.item]).slots i).trans hkept
          exact (hstock.same (.latchItems _ _ _)).writeRecord (r := r) (by rw [hlatched]; exact hrec) rfl (by rw [hlatched]; exact hready)

/-- A till that may take an unheld tab holds nothing (R101, R102). -/
theorem HoldsAgree.idle (h : HoldsAgree s) {p : Port} {tab : Nat} (hnone : (s.dir tab).holder = none) (hother : s.holdsAnother p tab = false) :
    s.hold p = none := by
  cases hp : s.hold p with
  | none => rfl
  | some x =>
    have hne := h.not_named hnone hp
    unfold State.holdsAnother at hother
    rw [hp] at hother
    simp [hne] at hother

theorem judgeState_of_execution {p : Port} {tab : Nat} {row : RequestRow} (h : s.judgeExecution row p tab = none) :
    s.judgeState row p tab = none := by
  unfold State.judgeExecution at h
  split at h
  · exact h
  · cases h

/-- A SPLIT proceeds on a tab that is TENDERING, or OPEN while its till holds nothing else (R102). -/
theorem split_proceeds {p : Port} {tab : Nat} (h : s.judgeExecution .split p tab = none) :
    (s.dir tab).state = .tendering ∨ (s.dir tab).state = .opened ∧ s.holdsAnother p tab = false := by
  have hj := judgeState_of_execution h
  unfold State.judgeState at hj
  cases hs : (s.dir tab).state <;> rw [hs] at hj <;> simp_all

/-- A CANCEL SPLIT and a TENDER proceed on a TENDERING tab that the till holds (R102). -/
theorem cancelOrTender_proceeds {p : Port} {tab : Nat} (h : s.judgeExecution .cancelOrTender p tab = none) :
    (s.dir tab).state = .tendering := by
  have hj := judgeState_of_execution h
  unfold State.judgeState at hj
  cases hs : (s.dir tab).state <;> rw [hs] at hj <;> simp_all

/-- A RESUME proceeds on a TENDERING tab, and if nobody holds it the till holds nothing else (R102). -/
theorem resume_proceeds {p : Port} {tab : Nat} (h : s.judgeExecution .resume p tab = none) :
    (s.dir tab).state = .tendering ∧ ((s.dir tab).holder = none → s.holdsAnother p tab = false) := by
  have hj := judgeState_of_execution h
  unfold State.judgeState at hj
  cases hs : (s.dir tab).state with
  | tendering =>
    refine ⟨rfl, fun hnone => ?_⟩
    rw [hs] at hj
    change s.judgeTendering .resume p tab = none at hj
    unfold State.judgeTendering at hj
    rw [hnone] at hj
    cases ho : s.holdsAnother p tab with
    | false => rfl
    | true => simp [ho] at hj
  | free => rw [hs] at hj; cases hj
  | damaged => rw [hs] at hj; cases hj
  | closed => rw [hs] at hj; cases hj
  | opened => rw [hs] at hj; cases hj

theorem Sound.writeNewSplit (h : Sound s) {i : SlotId} {p : Port} {tab : Nat} {r : TabRecord} (plan : SplitPlan)
    (hrec : (s.slot i).record = some r) (hready : (s.slot i).state = .ready) (hstate : (s.dir tab).state = .opened)
    (hother : s.holdsAnother p tab = false) : Sound (writeNewSplit i p tab r plan s) := by
  have hidle := h.holds.idle (h.holds.unheld (tab := tab) (by rw [hstate]; nofun)) hother
  have htaken := Sound.takeOpen (s := s.writeRecord i { r with plan := some plan }) (p := p) (tab := tab) (h.writeRecord hrec rfl hready)
    hstate hidle
  unfold Machine.writeNewSplit
  dsimp only
  split
  · refine Sound.same (htaken.closeTab ?_) (.reply _ _ _ _)
    rw [State.dir_setDir_self]
  · exact htaken.same (.reply _ _ _ _)

theorem slot_restartHold (s : State) (p : Port) (i : SlotId) : (s.restartHold p).slot i = s.slot i := slot_of_slots (by simp) i

theorem dir_restartHold (s : State) (p : Port) (u : Nat) : (s.restartHold p).dir u = s.dir u := dir_of_directory (by simp) u

theorem Sound.performSplit (h : Sound s) {i : SlotId} (p : Port) (tab : Nat) (spec : SplitSpec) (hready : (s.slot i).state = .ready) :
    Sound (performSplit i p tab spec s) := by
  unfold Machine.performSplit
  split
  · exact h.same (.refuse _ _ _ _)
  · rename_i hjudge
    split
    · exact h
    · rename_i r hrec
      split
      · split
        · exact (h.restartHold p).same (.refuse _ _ _ _)
        · split
          · exact (h.restartHold p).same (.refuse _ _ _ _)
          · rename_i plan _
            have hwritten := h.writeRecord (r' := { r with plan := some plan }) hrec rfl hready
            exact (hwritten.restartHold p).same (.reply _ _ _ _)
      · rename_i hnot
        split
        · exact h.same (.refuse _ _ _ _)
        · obtain ⟨hstate, hother⟩ := (split_proceeds hjudge).resolve_left hnot
          exact h.writeNewSplit _ hrec hready hstate hother

theorem Sound.performCancelSplit (h : Sound s) {i : SlotId} (p : Port) (tab : Nat) (hready : (s.slot i).state = .ready) :
    Sound (performCancelSplit i p tab s) := by
  unfold Machine.performCancelSplit
  split
  · exact h.same (.refuse _ _ _ _)
  · rename_i hjudge
    split
    · exact h.same (.refuse _ _ _ _)
    · split
      · exact h
      · rename_i r hrec
        have hwritten := h.writeRecord (r' := { r with plan := none }) hrec rfl hready
        exact Sound.same (hwritten.reopen (tab := tab) (cancelOrTender_proceeds hjudge)) (.reply _ _ _ _)

theorem Sound.recordTender (h : Sound s) {i : SlotId} (p : Port) (f : TenderFields) {r : TabRecord} (plan : SplitPlan) (x : Share)
    (hrec : (s.slot i).record = some r) (hready : (s.slot i).state = .ready) (hstate : (s.dir f.tab).state = .tendering) :
    Sound (recordTender i p f r plan x s) := by
  have hpaid := Sound.payInPart (s := s.writeRecord i (tenderedRecord f r plan x)) (tab := f.tab) (h.writeRecord hrec rfl hready)
    (ne_formatted_of_state (s := s) (by rw [hstate]; nofun))
  unfold Machine.recordTender
  dsimp only
  refine Sound.same ?_ (.reply _ _ _ _)
  split
  · refine hpaid.closeTab ?_
    rw [State.dir_setDir_self]
    exact hstate
  · exact hpaid

theorem Sound.performTender (h : Sound s) {i : SlotId} (p : Port) (f : TenderFields) (hready : (s.slot i).state = .ready) :
    Sound (performTender i p f s) := by
  unfold Machine.performTender
  split
  · exact h.same (.refuse _ _ _ _)
  · rename_i hjudge
    have hrestarted := h.restartHold p
    dsimp only
    split
    · exact hrestarted
    · rename_i r hrec
      split
      · exact hrestarted
      · split
        · exact hrestarted.same (.refuse _ _ _ _)
        · exact hrestarted.recordTender p f _ _ (by rw [slot_restartHold]; exact hrec) (by rw [slot_restartHold]; exact hready)
            (by rw [dir_restartHold]; exact cancelOrTender_proceeds hjudge)

theorem Sound.performResume (h : Sound s) (i : SlotId) (p : Port) (tab : Nat) : Sound (performResume i p tab s) := by
  unfold Machine.performResume
  split
  · exact h.same (.refuse _ _ _ _)
  · rename_i hjudge
    split
    · exact h
    · obtain ⟨hstate, hother⟩ := resume_proceeds hjudge
      refine Sound.same ?_ (.reply _ _ _ _)
      split
      · rename_i hnone
        exact h.takeHold hstate hnone (h.holds.idle hnone (hother hnone))
      · exact h.restartHold p

/-! ### READ TAB, DISCARD TAB and COLLECT -/

theorem Sound.performReadTab (h : Sound s) (i : SlotId) (p : Port) (tab page : Nat) : Sound (performReadTab i p tab page s) := by
  unfold Machine.performReadTab
  split
  · exact h.same (.refuse _ _ _ _)
  · split
    · exact h
    · exact h.same (.reply _ _ _ _)

theorem Sound.discardDamaged (h : Sound s) (p : Port) {tab : Nat} (hstate : (s.dir tab).state = .damaged) :
    Sound (discardDamaged p tab s) := by
  unfold Machine.discardDamaged
  split
  · exact h.same (.refuse _ _ _ _)
  · rename_i hlive
    exact (h.freeDamaged hstate (Nat.eq_zero_of_not_pos hlive)).same (.reply _ _ _ _)

/-- After its reply, a tab that is not TENDERING and has no live ticket becomes FREE at its READY slot. -/
theorem Sound.freeAfterReply (h : Sound s) {i : SlotId} {tab : Nat} (p : Port) (st : Status) (fields : List Byte)
    (hready : (s.slot i).state = .ready) (htab : (s.slot i).tab = some tab) (hstate : (s.dir tab).state ≠ .tendering)
    (hlive : (s.dir tab).live = 0) : Sound ((s.reply p st fields).freeAtSlot i tab) := by
  have hsame := SameTables.reply s p st fields
  have hslot := slot_of_slots hsame.slots i
  have hdir := dir_of_directory hsame.directory tab
  exact (h.same hsame).freeAtSlot (by rw [hslot]; exact hready) (by rw [hslot]; exact htab) (by rw [hdir]; exact hstate)
    (by rw [hdir]; exact hlive)

theorem Sound.performDiscard (h : Sound s) {i : SlotId} (p : Port) {tab : Nat} (hready : (s.slot i).state = .ready)
    (htab : (s.slot i).tab = some tab) : Sound (performDiscard i p tab s) := by
  unfold Machine.performDiscard
  split
  · exact h.same (.refuse _ _ _ _)
  · exact h.same (.refuse _ _ _ _)
  · exact h.same (.refuse _ _ _ _)
  · rename_i hstate
    exact h.discardDamaged p hstate
  · rename_i hstate
    unfold discardOpen
    split
    · exact h
    · split
      · exact h.same (.refuse _ _ _ _)
      · split
        · exact h.same (.refuse _ _ _ _)
        · rename_i hlive
          exact h.freeAfterReply p .ok _ hready htab (by rw [hstate]; nofun) (Nat.eq_zero_of_not_pos hlive)

theorem Sound.performCollect (h : Sound s) {i : SlotId} (p : Port) {tab : Nat} (hready : (s.slot i).state = .ready)
    (htab : (s.slot i).tab = some tab) : Sound (performCollect i p tab s) := by
  unfold Machine.performCollect
  split
  · rename_i hstate
    split
    · exact h.same (.refuse _ _ _ _)
    · rename_i hlive
      split
      · exact h
      · exact h.freeAfterReply p .ok _ hready htab (by rw [hstate]; nofun) (Nat.eq_zero_of_not_pos hlive)
  · exact h.same (.refuse _ _ _ _)
  · exact h.same (.refuse _ _ _ _)
  · exact h.same (.refuse _ _ _ _)

/-! ### A request executes, and the head of a wait list (R25, R26, R128) -/

/-- A request on the tab of its READY slot executes. -/
theorem Sound.perform (h : Sound s) {i : SlotId} (p : Port) {request : TabRequest} (hready : (s.slot i).state = .ready)
    (htab : (s.slot i).tab = some (requestTab request)) : Sound (Machine.perform i p request s) := by
  cases request with
  | order tab rush lines =>
    have hne : tab ≠ 0 := by
      rintro rfl
      have := (h.cached (h.cache.entry htab)).1
      simp [requestTab, isTab] at this
    change Sound (if tab = 0 then Machine.performNewOrder i p rush lines s else Machine.performOrder i p tab rush lines s)
    rw [if_neg hne]
    exact h.performOrder p rush lines hready htab
  | void tab line => exact h.performVoid p tab line hready
  | readTab tab page => exact h.performReadTab i p tab page
  | split tab spec => exact h.performSplit p tab spec hready
  | cancelSplit tab => exact h.performCancelSplit p tab hready
  | tender tab share method amount => exact h.performTender p _ hready
  | resume tab => exact h.performResume i p tab
  | collect tab => exact h.performCollect p hready htab
  | discardTab tab => exact h.performDiscard p hready htab

/-- The number 0 is no tab's: what is asked of it there is refused. -/
theorem Sound.noTab (h : Sound s) : s.dir 0 = DirEntry.formatted := h.lists.formatted 0 (.inr (.inl rfl))

/-- A request for tab 0 executes in its cleared slot (R24). -/
theorem Sound.performNew (h : Sound s) {i : SlotId} (p : Port) {request : TabRequest} (hphase : s.phase ≠ .starting)
    (hclear : s.slot i = CacheSlot.cleared) (hzero : requestTab request = 0) : Sound (Machine.perform i p request s) := by
  have hrec : (s.slot i).record = none := by rw [hclear]; rfl
  have hstate : (s.dir 0).state = .free := by rw [h.noTab]; rfl
  cases request with
  | order tab rush lines =>
    cases hzero
    exact h.performNewOrder p rush lines hphase hclear
  | void tab line =>
    cases hzero
    change Sound (Machine.performVoid i p 0 line s)
    unfold Machine.performVoid
    rw [hrec]
    split
    · exact h.same (.refuse _ _ _ _)
    · exact h
  | readTab tab page => exact h.performReadTab i p tab page
  | split tab spec =>
    cases hzero
    change Sound (Machine.performSplit i p 0 spec s)
    unfold Machine.performSplit
    rw [hrec]
    split
    · exact h.same (.refuse _ _ _ _)
    · exact h
  | cancelSplit tab =>
    cases hzero
    change Sound (Machine.performCancelSplit i p 0 s)
    unfold Machine.performCancelSplit
    rw [hrec]
    split
    · exact h.same (.refuse _ _ _ _)
    · split
      · exact h.same (.refuse _ _ _ _)
      · exact h
  | tender tab share method amount =>
    cases hzero
    change Sound (Machine.performTender i p _ s)
    unfold Machine.performTender
    rw [hrec]
    split
    · exact h.same (.refuse _ _ _ _)
    · exact h.restartHold p
  | resume tab => exact h.performResume i p tab
  | collect tab =>
    cases hzero
    change Sound (Machine.performCollect i p 0 s)
    unfold Machine.performCollect
    rw [hstate]
    exact h.same (.refuse _ _ _ _)
  | discardTab tab =>
    cases hzero
    change Sound (Machine.performDiscard i p 0 s)
    unfold Machine.performDiscard
    rw [hstate]
    exact h.same (.refuse _ _ _ _)

theorem Sound.turnAway (h : Sound s) (i : SlotId) (w : Waiter) (status : Status) : Sound (s.turnAway i w status) :=
  (h.popWaiter i).same (.refuseWaiter _ _ _)

/-- The head of a READY slot's wait list leaves it and executes. -/
theorem Sound.runHead (h : Sound s) {i : SlotId} {w : Waiter} {rest : List Waiter} (hready : (s.slot i).state = .ready)
    (hwaits : (s.slot i).waits = w :: rest) : Sound (s.runHead i w) := by
  have hfor := (h.cache.slots i).waits w (by rw [hwaits]; exact List.mem_cons_self)
  rw [(h.cache.slots i).incoming (by rw [hready]; nofun)] at hfor
  refine Sound.perform ((h.popWaiter i).same (.touch _ i)) w.port ?_ ?_
  · change ((s.popWaiter i).slot i).state = _
    unfold State.popWaiter
    rw [State.slot_setSlot_self]
    exact hready
  · change ((s.popWaiter i).slot i).tab = _
    unfold State.popWaiter
    rw [State.slot_setSlot_self]
    exact hfor

theorem Sound.splitGate (h : Sound s) {i : SlotId} {w : Waiter} {rest : List Waiter} (hready : (s.slot i).state = .ready)
    (hwaits : (s.slot i).waits = w :: rest) : Sound (s.splitGate i w) := by
  unfold State.splitGate
  split
  · exact h.runHead hready hwaits
  · exact h.turnAway i w .checkFailed
  · exact h.same {}
  · split
    · exact h.same {}
    · exact h.turnAway i w .busy

theorem Sound.executeHead (h : Sound s) (i : SlotId) : Sound (s.executeHead i) := by
  rcases s.executeHead_cases i with ⟨-, e⟩ | ⟨w, rest, hready, hwaits, -, ⟨-, e⟩ | ⟨-, e⟩⟩ <;> rw [e]
  · exact h
  · exact h.splitGate hready hwaits
  · exact h.runHead hready hwaits

end Sys2Proof.TabAgreement
end

section
/-! PROOFS. The agreement of the tables when requests come to the cache (R21 to R24) and when the memory controller's operations start and end (R29
to R41). -/

namespace Sys2Proof.TabAgreement

-- One theorem after another: as many checks at once take a thread each.
set_option Elab.async false

open Sys2Proof Sys2Proof.Machine Sys2Proof.Statements Sys2Proof.Invariants Sys2Proof.AtSlot Sys2Proof.OrderRules Sys2Proof.FreeTabs
open Sys2Proof.CacheRules Sys2Proof.MemoryRules

variable {s t : State}

/-! ### Fetches and write-backs start (R23, R24, R36) -/

theorem turnedField_other {i : SlotId} {x : CacheSlot} {u : Nat} (hx : names x u = false) (hs : names (s.slot i) u = false)
    (hagree : CacheAgree s) : turnedField s i x u = (s.dir u).slot := by
  have hne : (s.dir u).slot ≠ some i := fun e => by rw [(hagree.names_iff i u).2 e] at hs; cases hs
  unfold turnedField
  simp [hx, hne]

/-- An EMPTY slot starts to fetch a tab that is in no slot. -/
theorem Sound.startFetch (h : Sound s) {i : SlotId} {tab : Nat} {waits : List Waiter} (hclear : s.slot i = CacheSlot.cleared)
    (hfree : (s.dir tab).state ≠ .free) (hdamaged : (s.dir tab).state ≠ .damaged) (hnone : (s.dir tab).slot = none)
    (hwaits : ∀ w ∈ waits, requestTab w.request = tab) : Sound ((s.setCached tab (some i)).startFetch i tab waits) := by
  have hnames : ∀ u, names { state := .fetching, tab := some tab, incoming := .none, record := none, dirty := false, waits := waits } u =
      decide (tab = u) := fun u => by simp [names]
  refine h.slotTurns (rest := memoryOps s) ⟨rfl, rfl, rfl, rfl, rfl, rfl, rfl⟩ (slotBecomes_of (u := s) rfl rfl)
    (slotSound_fetching hwaits) (fun u => ?_) (fun u hu => ?_) (by rw [hclear]; exact .refl _) (memoryOps_enqueue rfl rfl) fun u hin => ?_
  · by_cases hu : u = tab
    · subst hu
      refine (State.dir_setDir_self s u _).trans ?_
      unfold turnedField
      rw [hnames]
      simp
    · rw [turnedField_other (by rw [hnames]; simpa using Ne.symm hu) (by rw [hclear]; rfl) h.cache]
      exact State.dir_setDir_other s hu _
  · rw [hnames, decide_eq_true_eq] at hu
    subst hu
    exact .inr ⟨hnone, hfree, hdamaged⟩
  · rcases List.mem_append.1 hin with hin | hin
    · exact h.cache.operations.audits u hin
    · cases List.mem_singleton.1 hin

/-- A READY slot starts to write its record back: for an incoming tab that is in no slot, or for nothing or NEW. -/
theorem Sound.startWrite (h : Sound s) {i : SlotId} {incoming : Incoming} {waits : List Waiter} {tab : Nat} (hready : (s.slot i).state = .ready)
    (htab : (s.slot i).tab = some tab)
    (hslot : SlotBecomes s t i { s.slot i with state := .writing, incoming := incoming, waits := waits })
    (hk : OnlyCache s t) (hqueue : t.memQueue = s.memQueue ++ [.writeBack i]) (hrunning : t.memRunning = s.memRunning)
    (hkeeps : incoming = .none → ∀ w ∈ waits, requestTab w.request = tab)
    (htakes : ∀ u, incoming = .tab u → ∀ w ∈ waits, requestTab w.request = u)
    (hnew : incoming = .new → ∀ w ∈ waits, requestTab w.request = 0)
    (hdir : ∀ u, t.dir u = if incoming = .tab u then { s.dir u with slot := some i } else s.dir u)
    (hcomes : ∀ u, incoming = .tab u → (s.dir u).slot = none ∧ (s.dir u).state ≠ .free ∧ (s.dir u).state ≠ .damaged) : Sound t := by
  obtain ⟨r, hrec, hnumber⟩ := (h.cache.slots i).record (.inl hready)
  have hnone := (h.cache.slots i).incoming (by rw [hready]; nofun)
  have hr : r.tab = tab := by rw [htab] at hnumber; exact (Option.some.inj hnumber).symm
  have hcached := h.cache.entry htab
  have hold : ∀ u, (s.dir u).slot = some i ↔ u = tab := fun u => by
    rw [h.cache.slot u i, hnone, htab]
    exact ⟨fun e => e.elim (fun e => (Option.some.inj e).symm) nofun, fun e => .inl (by rw [e])⟩
  refine h.slotTurns (rest := memoryOps s) hk hslot
    (slotSound_writing (r := r) rfl hrec hnumber (fun e => ?_) (hr ▸ hkeeps) htakes hnew) (fun u => ?_) (fun u hu => ?_)
    (by rw [hready]; exact .refl _) (memoryOps_enqueue hqueue hrunning) fun u hin => ?_
  · have := (hcomes _ e).1
    rw [hr, hcached] at this
    cases this
  · have hnames : names { s.slot i with state := .writing, incoming := incoming, waits := waits } u =
        (decide (u = tab) || decide (incoming = .tab u)) := by
      simp only [names, htab, Option.some.injEq, eq_comm]
    rw [hdir]
    unfold turnedField
    rw [hnames]
    by_cases hin : incoming = .tab u
    · simp [hin]
    · by_cases hut : u = tab
      · have hown : (s.dir tab).slot = some i := (hold tab).2 rfl
        rw [hut] at hin ⊢
        rw [if_neg hin]
        simp only [decide_true, Bool.true_or, if_true, ← hown]
      · simp [hin, hut, hold]
  · rcases names_iff.1 hu with e | e
    · exact .inl (h.cache.entry e)
    · exact .inr (hcomes u e)
  · rw [hqueue] at hin
    rcases List.mem_append.1 hin with hin | hin
    · exact h.cache.operations.audits u hin
    · cases List.mem_singleton.1 hin

/-- A slot's write-back for nothing or for NEW starts. -/
theorem Sound.startWriteIdle (h : Sound s) {i : SlotId} {incoming : Incoming} {waits : List Waiter} {tab : Nat}
    (hready : (s.slot i).state = .ready) (htab : (s.slot i).tab = some tab) (hno : ∀ u, incoming ≠ .tab u)
    (hkeeps : incoming = .none → ∀ w ∈ waits, requestTab w.request = tab)
    (hnew : incoming = .new → ∀ w ∈ waits, requestTab w.request = 0) : Sound (s.startWrite i incoming waits) :=
  h.startWrite hready htab (slotBecomes_of (u := s) rfl rfl) ⟨rfl, rfl, rfl, rfl, rfl, rfl, rfl⟩ rfl rfl hkeeps (fun u e => absurd e (hno u)) hnew
    (fun u => (if_neg (hno u)).symm) fun u e => absurd e (hno u)

/-! ### The victim (R22, R23) -/

theorem victim_spec {i : SlotId} (h : s.victim = some i) :
    (s.slot i).state = .empty ∨ (s.slot i).state = .ready ∧ (s.slot i).waits = [] := by
  unfold State.victim at h
  rcases Option.or_eq_some_iff.1 h with h | ⟨-, h⟩
  · exact .inl (by simpa using List.find?_some h)
  · exact .inr (by simpa using List.find?_some h)

theorem Sound.slotTab (h : Sound s) {i : SlotId} (hready : (s.slot i).state = .ready) : ∃ tab, (s.slot i).tab = some tab := by
  obtain ⟨r, -, htab⟩ := (h.cache.slots i).record (.inl hready)
  exact ⟨r.tab, htab⟩

/-- The victim is claimed for a tab in no slot. -/
theorem Sound.claim (h : Sound s) {i : SlotId} {tab : Nat} {w : Waiter} (hvictim : s.victim = some i) (hfree : (s.dir tab).state ≠ .free)
    (hdamaged : (s.dir tab).state ≠ .damaged) (hnone : (s.dir tab).slot = none) (hw : requestTab w.request = tab) :
    Sound (s.claim i tab w) := by
  cases hd : s.victimDirty i with
  | true =>
    rw [claim_dirty s tab w hd]
    have hready := ((victimDirty_iff s i).1 hd).1
    obtain ⟨own, hown⟩ := h.slotTab hready
    have hcached := fun u => dir_of_directory (s := s.setDir tab { s.dir tab with slot := some i })
      (t := (s.startWrite i (.tab tab) [w]).setCached tab (some i)) rfl u
    refine h.startWrite (incoming := .tab tab) (waits := [w]) hready hown
      (slotBecomes_of (u := s) rfl rfl) ⟨rfl, rfl, rfl, rfl, rfl, rfl, rfl⟩ rfl rfl nofun (fun u e x hx => ?_) nofun (fun u => ?_) fun u e => ?_
    · cases e; rw [List.mem_singleton.1 hx]; exact hw
    · rw [hcached]
      by_cases hu : u = tab
      · rw [hu, if_pos rfl, State.dir_setDir_self]
      · rw [if_neg fun e => hu (Incoming.tab.inj e).symm, State.dir_setDir_other s hu]
    · cases e; exact ⟨hnone, hfree, hdamaged⟩
  | false =>
    have hcleared := h.uncacheCleared ((victim_spec hvictim).imp id And.left)
    have hdir : ((s.uncache i).setSlot i CacheSlot.cleared).dir tab = s.dir tab := by
      refine (uncache_dir s i tab).trans (if_neg fun e => ?_)
      rw [h.cache.entry e] at hnone
      cases hnone
    have hfetch := hcleared.startFetch (waits := [w]) (State.slot_setSlot_self _ _ _) (by rw [hdir]; exact hfree)
      (by rw [hdir]; exact hdamaged) (by rw [hdir]; exact hnone) (by simpa using hw)
    have hsame : (((s.uncache i).setSlot i CacheSlot.cleared).setCached tab (some i)).startFetch i tab [w] = s.claim i tab w := by
      rw [claim_clean s tab w hd]
      unfold State.startFetch
      rw [show ((s.uncache i).setSlot i CacheSlot.cleared).setCached tab (some i) =
        ((s.uncache i).setCached tab (some i)).setSlot i CacheSlot.cleared from rfl, State.setSlot_setSlot]
    rw [← hsame]
    exact hfetch

/-! ### Requests come to the cache (R21 to R24) -/

/-- A request joins the wait list of a slot that has what it waits for. -/
theorem Sound.joinWaits (h : Sound s) {i : SlotId} {w : Waiter} (hsound : SlotSound { s.slot i with waits := (s.slot i).waits ++ [w] }) :
    Sound (s.joinWaits i w) := by
  unfold State.joinWaits
  split
  · exact h.setWaits hsound
  · exact h.same (.refuseWaiter _ _ _)

/-- One more waits at a slot that is not EMPTY, for its tab or what comes in. -/
theorem slotSound_joined {x : CacheSlot} (h : SlotSound x) (hstate : x.state ≠ .empty) {w : Waiter} {waits : List Waiter}
    (hold : ∀ y ∈ waits, y ∈ x.waits ∨ y = w) (hkeeps : x.incoming = .none → x.tab = some (requestTab w.request))
    (htakes : ∀ u, x.incoming = .tab u → requestTab w.request = u) (hnew : x.incoming ≠ .new) : SlotSound { x with waits := waits } where
  empty e := absurd e hstate
  tab := h.tab
  record := h.record
  incoming := h.incoming
  own := h.own
  waits y hy := by
    rcases hold y hy with hy | rfl
    · exact h.waits y hy
    · cases hi : x.incoming with
      | none => exact hkeeps hi
      | tab u => exact htakes u hi
      | new => exact absurd hi hnew

theorem Sound.atOwnSlot (h : Sound s) {i : SlotId} {w : Waiter} (htab : (s.slot i).tab = some (requestTab w.request)) :
    Sound (s.atOwnSlot i w) := by
  have hslot := h.cache.slots i
  have hjoined : ∀ waits : List Waiter, (∀ y ∈ waits, y ∈ (s.slot i).waits ∨ y = w) →
      (s.slot i).state ≠ .empty → (s.slot i).incoming = .none →
      SlotSound { s.slot i with waits := waits } := fun waits hwaits hstate hnone =>
    slotSound_joined hslot hstate hwaits (fun _ => htab) (fun u e => by rw [hnone] at e; cases e) (by rw [hnone]; nofun)
  have happended : ∀ y ∈ (s.slot i).waits ++ [w], y ∈ (s.slot i).waits ∨ y = w := fun y hy => by simpa using hy
  unfold State.atOwnSlot
  split
  · rename_i hstate
    have hne : (s.slot i).state ≠ .empty := by rw [hstate]; nofun
    have hnone := hslot.incoming (by rw [hstate]; nofun)
    split
    · exact (h.setWaits (hjoined [w] (by simp) hne hnone)).executeHead i
    · exact h.joinWaits (hjoined _ happended hne hnone)
  · rename_i hstate
    exact h.joinWaits (hjoined _ happended (by rw [hstate]; nofun) (hslot.incoming (by rw [hstate]; nofun)))
  · rename_i hstate
    split
    · rename_i hnone
      exact h.joinWaits (hjoined _ happended (by rw [hstate]; nofun) hnone)
    · exact h.same (.refuseWaiter _ _ _)
  · exact h.same (.refuseWaiter _ _ _)

/-- A request for a tab that is neither FREE nor DAMAGED comes to the cache. -/
theorem Sound.cacheRequest (h : Sound s) {tab : Nat} {w : Waiter} (hfree : (s.dir tab).state ≠ .free) (hdamaged : (s.dir tab).state ≠ .damaged)
    (hw : requestTab w.request = tab) : Sound (s.cacheRequest tab w) := by
  unfold State.cacheRequest
  split
  · rename_i i hslot
    split
    · rename_i htab
      exact h.atOwnSlot (by rw [hw]; exact htab)
    · split
      · rename_i hincoming
        have hstate : (s.slot i).state ≠ .empty := fun e => by
          rw [(h.cache.slots i).empty e] at hincoming; cases hincoming
        refine h.joinWaits (slotSound_joined (h.cache.slots i) hstate (fun y hy => by simpa using hy) (fun e => ?_) (fun u e => ?_) ?_)
        · rw [hincoming] at e; cases e
        · rw [hincoming] at e; cases e; exact hw
        · rw [hincoming]; nofun
      · exact h.same (.refuseWaiter _ _ _)
  · rename_i hnone
    split
    · exact h.same (.refuseWaiter _ _ _)
    · rename_i i hvictim
      exact h.claim hvictim hfree hdamaged hnone hw

/-- An ORDER for tab 0 comes to the cache (R24). -/
theorem Sound.cacheNewOrder (h : Sound s) {w : Waiter} (hphase : s.phase ≠ .starting) (hw : requestTab w.request = 0) :
    Sound (s.cacheNewOrder w) := by
  unfold State.cacheNewOrder
  split
  · exact h.same (.refuseWaiter _ _ _)
  · split
    · exact h.same (.refuseWaiter _ _ _)
    · rename_i i hvictim
      split
      · rename_i hd
        have hready := ((victimDirty_iff s i).1 hd).1
        obtain ⟨own, hown⟩ := h.slotTab hready
        exact h.startWriteIdle hready hown nofun nofun fun _ x hx => by rw [List.mem_singleton.1 hx]; exact hw
      · have hcleared := h.uncacheCleared ((victim_spec hvictim).imp id And.left)
        unfold State.runNewOrder
        refine (hcleared.same (.touch _ i)).performNew w.port ?_ (State.slot_setSlot_self (s.uncache i) i _) hw
        obtain ⟨directory, hframe⟩ := uncache_frame s i
        rw [hframe]
        exact hphase

/-- A till's request on a tab is judged and comes to the cache. -/
theorem Sound.toCache (h : Sound s) (p : Port) {tab : Nat} {request : TabRequest} (hrequest : requestTab request = tab) :
    Sound (s.toCache p tab request) := by
  unfold State.toCache
  split
  · exact h.same (.refuse _ _ _ _)
  · rename_i hjudge
    unfold State.judgeTaken at hjudge
    split at hjudge
    · cases hjudge
    · rename_i hfree
      split at hjudge
      · cases hjudge
      · rename_i hdamaged
        exact h.cacheRequest (fun e => hfree (by simp [e])) hdamaged hrequest

end Sys2Proof.TabAgreement
end

section
/-! PROOFS. The agreement of the tables when the memory controller's operations start and end (R29 to R41). -/

namespace Sys2Proof.TabAgreement

-- One theorem after another: as many checks at once take a thread each.
set_option Elab.async false

open Sys2Proof Sys2Proof.Machine Sys2Proof.Statements Sys2Proof.Invariants Sys2Proof.AtSlot Sys2Proof.OrderRules Sys2Proof.FreeTabs
open Sys2Proof.CacheRules Sys2Proof.MemoryRules

variable {s t : State}

/-! ### Operations start, and audit reads end (R29, R38 to R41) -/

/-- The controller has the same slot operations. -/
theorem operationsAgree_mem (h : OperationsAgree s) (hslot : ∀ i, (t.slot i).state = (s.slot i).state)
    (hfetch : ∀ i, MemOp.fetch i ∈ memoryOps t ↔ MemOp.fetch i ∈ memoryOps s)
    (hwrite : ∀ i, MemOp.writeBack i ∈ memoryOps t ↔ MemOp.writeBack i ∈ memoryOps s) (honce : (memoryOps t).Nodup)
    (haudits : ∀ u, MemOp.auditRead u ∉ t.memQueue) : OperationsAgree t :=
  ⟨fun i => by rw [hfetch, hslot]; exact h.fetches i, fun i => by rw [hwrite, hslot]; exact h.writes i, honce, haudits⟩

/-- Nothing but the controller has changed, which has the same slot operations. -/
theorem Sound.controller (h : Sound s) (hk : OnlyCache s t) (hdir : t.directory = s.directory) (hslots : t.slots = s.slots)
    (hops : OperationsAgree t) : Sound t := by
  have hd := dir_of_directory hdir
  refine h.recached hk (fun u => ⟨(s.dir u).slot, hd u⟩) (fun u hu => (hd u).trans hu) ⟨fun u i => ?_, fun u => ?_, fun i => ?_, hops⟩
  · rw [hd, slot_of_slots hslots]; exact h.cache.slot u i
  · rw [hd]; exact h.cache.damaged u
  · rw [slot_of_slots hslots]; exact h.cache.slots i

theorem memoryOps_only {running : RunningOp} (hqueue : t.memQueue = []) (hrunning : t.memRunning = some running) :
    memoryOps t = [running.op] := by
  unfold memoryOps
  rw [hqueue, hrunning]
  rfl

theorem Sound.startOperation (h : Sound s) : Sound s.startOperation := by
  have hops := h.cache.operations
  unfold State.startOperation
  cases hfree : s.memRunning with
  | some _ => exact h
  | none =>
    cases hqueue : s.memQueue with
    | cons op rest =>
      have hperm : ([op] ++ rest).Perm (memoryOps s) := by
        rw [memoryOps_free hfree, hqueue]; exact .refl _
      have hnew : (rest ++ [op]).Perm (memoryOps s) := List.perm_append_comm.trans hperm
      refine h.controller ⟨rfl, rfl, rfl, rfl, rfl, rfl, rfl⟩ rfl rfl (operationsAgree_mem hops (fun _ => rfl) (fun i => hnew.mem_iff)
        (fun i => hnew.mem_iff) (hnew.nodup_iff.2 hops.once) fun u hin => hops.audits u ?_)
      rw [hqueue]
      exact List.mem_cons_of_mem _ hin
    | nil =>
      cases haudit : s.auditQueued with
      | none => exact h
      | some u =>
        have hnone : memoryOps s = [] := by rw [memoryOps_free hfree, hqueue]
        dsimp only
        refine h.controller ⟨rfl, rfl, rfl, rfl, rfl, rfl, rfl⟩ rfl rfl (operationsAgree_mem hops (fun _ => rfl) (fun i => ?_) (fun i => ?_) ?_
          nofun) <;> rw [memoryOps_only rfl rfl]
        · rw [hnone]; simp
        · rw [hnone]; simp
        · exact List.nodup_singleton _

/-- The audit read that ran has ended. -/
theorem Sound.freeAuditRead (h : Sound s) {u deadline : Nat} (hrunning : s.memRunning = some { op := .auditRead u, deadline := deadline }) :
    Sound s.freeController := by
  have hops := h.cache.operations
  have hmem : memoryOps s = s.memQueue ++ [.auditRead u] := by unfold memoryOps; rw [hrunning]; rfl
  have honce := hops.once
  rw [hmem, List.nodup_append] at honce
  have hfree : memoryOps s.freeController = s.memQueue := memoryOps_free rfl
  refine h.controller ⟨rfl, rfl, rfl, rfl, rfl, rfl, rfl⟩ rfl rfl (operationsAgree_mem hops (fun _ => rfl) (fun i => ?_) (fun i => ?_)
    (hfree ▸ honce.1) hops.audits) <;> (rw [hfree, hmem]; simp)

theorem Sound.walkAudit (h : Sound s) (a : Audit) (next : Nat) : Sound (s.walkAudit a next) := by
  unfold State.walkAudit
  dsimp only
  split
  · exact h.same ⟨rfl, rfl, rfl, rfl, rfl, rfl, rfl, rfl, rfl, rfl, rfl⟩
  · exact Sound.same (t := { s with audit := none }) h ⟨rfl, rfl, rfl, rfl, rfl, rfl, rfl, rfl, rfl, rfl, rfl⟩ |>.same (.raise _ _)

theorem Sound.endAuditRead (h : Sound s) (tab : Nat) (outcome : Option Bool) : Sound (s.endAuditRead tab outcome) := by
  unfold State.endAuditRead
  split
  · exact h
  · split
    · exact h.walkAudit _ _
    · split
      · exact h.walkAudit _ _
      · exact h.walkAudit _ _
      · split
        · rename_i hmay
          have hslot : (s.dir tab).slot = none := by
            simp only [mayDamage, Bool.and_eq_true, Option.isNone_iff_eq_none] at hmay
            exact hmay.2
          have huse : s.dir tab ≠ DirEntry.formatted := fun e => by
            rw [e] at hmay
            exact absurd hmay (by decide)
          exact Sound.walkAudit ((h.damageTab huse hslot).same (.raise _ _)) _ _
        · exact h.walkAudit _ _

/-! ### A slot's operation ends -/

/-- The slot whose operation runs. -/
theorem operation_running (h : OperationsAgree s) {op : MemOp} {deadline : Nat} (hrunning : s.memRunning = some { op := op, deadline := deadline }) :
    (∀ i, op = .fetch i → (s.slot i).state = .fetching) ∧ ∀ i, op = .writeBack i → (s.slot i).state = .writing := by
  have hmem : op ∈ memoryOps s := by
    unfold memoryOps
    rw [hrunning]
    simp
  exact ⟨fun i e => (h.fetches i).1 (e ▸ hmem), fun i e => (h.writes i).1 (e ▸ hmem)⟩

theorem slotSound_readySlot {x : CacheSlot} {tab : Nat} {r : TabRecord} {waits : List Waiter} (htab : x.tab = some tab) (hr : r.tab = tab)
    (hwaits : ∀ w ∈ waits, requestTab w.request = tab) (s : State) (dirty : Bool) : SlotSound (readySlot s x tab r dirty waits) := by
  have hown : (if (s.dir tab).state = .opened then { r with plan := none } else r).tab = tab := by split <;> exact hr
  exact slotSound_ready rfl rfl rfl (by rw [hown]; exact htab) (by rw [hown]; exact hwaits)

/-- The operation of a slot that fetches or writes has ended, and the slot is READY with its tab; what came in, comes no more. -/
theorem Sound.becomesReady (h : Sound s) {op : MemOp} {deadline : Nat} {i : SlotId} {x : CacheSlot} {tab : Nat}
    (hrunning : s.memRunning = some { op := op, deadline := deadline }) (hop : slotOp i (s.slot i).state = [op]) (hk : OnlyCache s t)
    (hslot : SlotBecomes s t i x) (hsound : SlotSound x) (hready : x.state = .ready) (htab : (s.slot i).tab = some tab)
    (hx : x.tab = some tab) (hdir : ∀ u, t.dir u = if (s.slot i).incoming = .tab u then { s.dir u with slot := none } else s.dir u)
    (hqueue : t.memQueue = s.memQueue) (hfree : t.memRunning = none) : Sound t := by
  have hincoming : x.incoming = .none := hsound.incoming (by rw [hready]; nofun)
  have hnames : ∀ u, names x u = decide (tab = u) := fun u => by simp [names, hx, hincoming]
  refine h.slotTurns (rest := s.memQueue) hk hslot hsound (fun u => ?_) (fun u hu => .inl ?_) (by rw [hop]; exact memoryOps_running hrunning)
    (by rw [hready, memoryOps_free hfree, hqueue]; exact .refl _) (by rw [hqueue]; exact h.cache.operations.audits)
  · rw [hdir]
    by_cases hin : (s.slot i).incoming = .tab u
    · have hne : tab ≠ u := by rintro rfl; exact (h.cache.slots i).own tab hin htab
      rw [if_pos hin]
      unfold turnedField
      rw [hnames, (h.cache.slot u i).2 (.inr hin)]
      simp [hne]
    · rw [if_neg hin, h.cache.turnedField_same]
      rw [hnames]
      simp [names, htab, hin]
  · rw [hnames, decide_eq_true_eq] at hu
    exact h.cache.entry (hu ▸ htab)

/-- The slot fields when a slot is emptied whose tab is alone named by it, but for NEW. -/
theorem CacheAgree.turnedField_empty (h : CacheAgree s) {i : SlotId} {tab : Nat} (htab : (s.slot i).tab = some tab)
    (hincoming : ∀ u, (s.slot i).incoming ≠ .tab u) (u : Nat) :
    turnedField s i CacheSlot.cleared u = if u = tab then none else (s.dir u).slot := by
  have hiff : (s.dir u).slot = some i ↔ u = tab := by
    rw [h.slot u i, htab]
    exact ⟨fun e => e.elim (fun e => (Option.some.inj e).symm) fun e => absurd e (hincoming u), fun e => .inl (by rw [e])⟩
  unfold turnedField
  rw [names_cleared]
  simp only [hiff, Bool.false_eq_true, if_false]

/-- The operation of a slot that fetches or writes has ended, and the slot is EMPTY; its tab is uncached. -/
theorem Sound.becomesEmpty (h : Sound s) {op : MemOp} {deadline : Nat} {i : SlotId} {tab : Nat}
    (hrunning : s.memRunning = some { op := op, deadline := deadline }) (hop : slotOp i (s.slot i).state = [op]) (hk : OnlyCache s t)
    (hslot : SlotBecomes s t i CacheSlot.cleared) (htab : (s.slot i).tab = some tab) (hincoming : ∀ u, (s.slot i).incoming ≠ .tab u)
    (hdir : EntryBecomes s t tab { s.dir tab with slot := none }) (hqueue : t.memQueue = s.memQueue) (hfree : t.memRunning = none) : Sound t := by
  refine h.slotTurns (rest := s.memQueue) hk hslot Frames.slotSound_cleared (fun u => ?_) (fun u hu => by rw [names_cleared] at hu; cases hu)
    (by rw [hop]; exact memoryOps_running hrunning) (by rw [memoryOps_free hfree, hqueue]; exact .refl _)
    (by rw [hqueue]; exact h.cache.operations.audits)
  rw [h.cache.turnedField_empty htab hincoming]
  by_cases hu : u = tab
  · rw [hu, hdir.1, if_pos rfl]
  · rw [hdir.2 u hu, if_neg hu]

/-! ### Fetches end (R32, R33) -/

/-- A slot that fetches holds the number of its tab, and nothing comes in. -/
theorem Sound.fetches (h : Sound s) {i : SlotId} {deadline : Nat} (hrunning : s.memRunning = some { op := .fetch i, deadline := deadline }) :
    (s.slot i).state = .fetching ∧ (∃ tab, (s.slot i).tab = some tab) ∧ (s.slot i).incoming = .none := by
  have hstate := (operation_running h.cache.operations hrunning).1 i rfl
  exact ⟨hstate, Option.ne_none_iff_exists'.1 ((h.cache.slots i).tab (by rw [hstate]; nofun)), (h.cache.slots i).incoming (by rw [hstate]; nofun)⟩

theorem Sound.finishFetch (h : Sound s) {i : SlotId} {deadline : Nat} (hrunning : s.memRunning = some { op := .fetch i, deadline := deadline })
    (read : MemRead) : Sound (s.freeController.finishFetch i (orZero (s.slot i).tab) read) := by
  obtain ⟨hstate, ⟨tab, htab⟩, hincoming⟩ := h.fetches hrunning
  have hop : slotOp i (s.slot i).state = [.fetch i] := by rw [hstate]; rfl
  rw [htab]
  change Sound (s.freeController.finishFetch i tab read)
  cases hpass : passes tab (s.readMemory tab read) with
  | none =>
    obtain ⟨directory, holds, closedList, ports, hrun, hentry, hheld, hfree, hclosed, -, -⟩ :=
      finishFetch_damages (s := s.freeController) (i := i) hpass
    rw [hrun]
    generalize hv : { (s.freeController.setSlot i CacheSlot.cleared) with
      directory := directory, holds := holds, closedList := closedList, ports := ports,
      notices := (s.freeController.raise (.tab tab .damaged)).notices, dropped := (s.freeController.raise (.tab tab .damaged)).dropped } = v
    have he : EntryBecomes s v tab { s.dir tab with state := .damaged, holder := none, slot := none } := by subst hv; exact hentry
    have hslots : SlotBecomes s v i CacheSlot.cleared := by subst hv; exact slotBecomes_of (u := s) rfl rfl
    refine h.damages (ne_formatted_of_slot (h.cache.entry htab)) he rfl rfl rfl (by subst hv; rfl) (by subst hv; rfl)
      (by subst hv; exact hclosed) (by subst hv; exact hheld) (by subst hv; exact hfree) (by subst hv; rfl) (by subst hv; rfl) (by subst hv; rfl)
      (h.cache.becomes (rest := s.memQueue) hslots Frames.slotSound_cleared (fun u => ?_) (fun u hu => by rw [names_cleared] at hu; cases hu)
        (fun u hu => ?_) (by rw [hop]; exact memoryOps_running hrunning)
        (by rw [memoryOps_free (by subst hv; rfl)]; subst hv; exact .refl _) (by subst hv; exact h.cache.operations.audits))
    · rw [h.cache.turnedField_empty htab (by rw [hincoming]; nofun)]
      by_cases hu : u = tab
      · rw [hu, he.1, if_pos rfl]
      · rw [he.2 u hu, if_neg hu]
    · by_cases hut : u = tab
      · rw [hut, he.1]
      · rw [he.2 u hut] at hu ⊢; exact h.cache.damaged u hu
  | some r =>
    obtain ⟨c, hread, rfl, hcheck, hnumber⟩ := (passes_eq_some_iff _ _ _).1 hpass
    rw [finishFetch_passes (s := s.freeController) htab hread hcheck hnumber]
    refine Sound.executeHead (h.becomesReady (x := readySlot s (s.slot i) tab c.record false (s.slot i).waits)
      (t := s.freeController.setSlot i (readySlot s (s.slot i) tab c.record false (s.slot i).waits)) hrunning hop
      ⟨rfl, rfl, rfl, rfl, rfl, rfl, rfl⟩ (slotBecomes_of (u := s) rfl rfl)
      (slotSound_readySlot htab hnumber (fun w hw => slotSound_waitsFor (h.cache.slots i) htab hincoming hw) s false) rfl htab htab
      (fun u => (if_neg (by rw [hincoming]; nofun)).symm) rfl rfl) i

theorem Sound.abandonFetch (h : Sound s) {i : SlotId} {deadline : Nat} (hrunning : s.memRunning = some { op := .fetch i, deadline := deadline }) :
    Sound ((s.freeController.reach deadline).abandonFetch i (orZero (s.slot i).tab)) := by
  obtain ⟨hstate, ⟨tab, htab⟩, hincoming⟩ := h.fetches hrunning
  rw [htab]
  change Sound ((s.freeController.reach deadline).abandonFetch i tab)
  obtain ⟨ports, hrun, -⟩ := abandonFetch_eq (s.freeController.reach deadline) i tab
  rw [hrun]
  exact h.becomesEmpty hrunning (by rw [hstate]; rfl) ⟨rfl, rfl, rfl, rfl, rfl, rfl, rfl⟩ (slotBecomes_of (u := s) rfl rfl) htab
    (by rw [hincoming]; nofun) (entryBecomes_of (u := s) rfl fun _ _ => rfl) rfl rfl

/-! ### Write-backs end (R34, R35) -/

theorem Sound.flushReply (h : Sound s) (f : Flush) : Sound (s.flushReply f) := by
  unfold State.flushReply
  split
  · exact h.same (.reply _ _ _ _)
  · exact h.same (.refuse _ _ _ _)

theorem Sound.countFlush (h : Sound s) (i : SlotId) (fault : Option Nat) : Sound (s.countFlush i fault) := by
  unfold State.countFlush
  split
  · exact h
  · split
    · dsimp only
      split
      · exact Sound.flushReply (s := { s with flush := none }) (h.same ⟨rfl, rfl, rfl, rfl, rfl, rfl, rfl, rfl, rfl, rfl, rfl⟩) _
      · exact h.same ⟨rfl, rfl, rfl, rfl, rfl, rfl, rfl, rfl, rfl, rfl, rfl⟩
    · exact h

/-- A slot that writes holds a record of its tab. -/
theorem Sound.writes (h : Sound s) {i : SlotId} {deadline : Nat} (hrunning : s.memRunning = some { op := .writeBack i, deadline := deadline }) :
    (s.slot i).state = .writing ∧ ∃ r, (s.slot i).record = some r ∧ (s.slot i).tab = some r.tab := by
  have hstate := (operation_running h.cache.operations hrunning).2 i rfl
  exact ⟨hstate, (h.cache.slots i).record (.inr hstate)⟩

/-- The slot of a write-back becomes READY, with its tab and record and with these who wait for its tab. -/
theorem Sound.writtenReady (h : Sound s) {i : SlotId} {deadline : Nat} {r : TabRecord} {dirty : Bool} {waits : List Waiter}
    (hrunning : s.memRunning = some { op := .writeBack i, deadline := deadline }) (htab : (s.slot i).tab = some r.tab) (hk : OnlyCache s t)
    (hwaits : ∀ w ∈ waits, requestTab w.request = r.tab) (u : State) (hslot : SlotBecomes s t i (readySlot u (s.slot i) r.tab r dirty waits))
    (hdir : ∀ v, t.dir v = if (s.slot i).incoming = .tab v then { s.dir v with slot := none } else s.dir v)
    (hqueue : t.memQueue = s.memQueue) (hfree : t.memRunning = none) : Sound t :=
  h.becomesReady hrunning (by rw [(h.writes hrunning).1]; rfl) hk hslot (slotSound_readySlot htab rfl hwaits u dirty) rfl htab htab hdir hqueue
    hfree

/-- The slot of a write-back for an incoming tab fetches it; the tab that it held is uncached (R34). -/
theorem Sound.fetchesNext (h : Sound s) {i : SlotId} {tab u deadline : Nat}
    (hrunning : s.memRunning = some { op := .writeBack i, deadline := deadline }) (htab : (s.slot i).tab = some tab)
    (hincoming : (s.slot i).incoming = .tab u) (hk : OnlyCache s t)
    (hslot : SlotBecomes s t i ⟨.fetching, some u, .none, none, false, (s.slot i).waits⟩)
    (hdir : EntryBecomes s t tab { s.dir tab with slot := none }) (hqueue : t.memQueue = s.memQueue ++ [.fetch i]) (hfree : t.memRunning = none) :
    Sound t := by
  have hown : tab ≠ u := by rintro rfl; exact (h.cache.slots i).own _ hincoming htab
  have hcoming : (s.dir u).slot = some i := (h.cache.slot u i).2 (.inr hincoming)
  have hfor : ∀ w ∈ (s.slot i).waits, requestTab w.request = u := fun w hw => by
    have := (h.cache.slots i).waits w hw
    rw [hincoming] at this
    exact this
  have hnames : ∀ w, names ⟨.fetching, some u, .none, none, false, (s.slot i).waits⟩ w = decide (u = w) := fun w => by simp [names]
  refine h.slotTurns (rest := s.memQueue) hk hslot (slotSound_fetching hfor) (fun w => ?_) (fun w hw => .inl ?_)
    (by rw [(h.writes hrunning).1]; exact memoryOps_running hrunning) (by rw [memoryOps_free hfree, hqueue]; exact List.perm_append_comm)
    fun w hin => ?_
  · unfold turnedField
    rw [hnames]
    by_cases hw : w = tab
    · rw [hw, hdir.1]; simp [Ne.symm hown, h.cache.entry htab]
    · rw [hdir.2 w hw]
      by_cases hu : u = w
      · subst hu; simp [← hcoming]
      · have hnot : (s.dir w).slot ≠ some i := fun e => by
          rcases (h.cache.slot w i).1 e with e | e
          · rw [htab] at e; exact hw (Option.some.inj e).symm
          · rw [hincoming] at e; exact hu (Incoming.tab.inj e)
        simp [hu, hnot]
  · rw [hnames, decide_eq_true_eq] at hw
    exact hw ▸ hcoming
  · rw [hqueue] at hin
    rcases List.mem_append.1 hin with hin | hin
    · exact h.cache.operations.audits w hin
    · cases List.mem_singleton.1 hin

/-- A cleared slot opens for the ORDER that waited for it, or stays EMPTY (R34). -/
theorem openForNew_sound {v : State} {i : SlotId} (h : Sound (v.setSlot i CacheSlot.cleared)) (hphase : v.phase ≠ .starting)
    (hwaits : ∀ w ∈ (v.slot i).waits, requestTab w.request = 0) : Sound (v.openForNew i) := by
  unfold State.openForNew
  cases hw : (v.slot i).waits with
  | nil => exact h
  | cons w rest =>
    exact Sound.performNew (h.same (.touch _ i)) w.port hphase (State.slot_setSlot_self _ i _) (hwaits w (by rw [hw]; exact List.mem_cons_self))

theorem Sound.finishWrite (h : Sound s) {i : SlotId} {deadline : Nat}
    (hrunning : s.memRunning = some { op := .writeBack i, deadline := deadline }) : Sound (s.freeController.finishWrite i) := by
  obtain ⟨hstate, r, hrec, htab⟩ := h.writes hrunning
  generalize hv : s.freeController.store r.tab { record := r, check := recordCheck r } = v
  have hwritten : s.freeController.recordWritten i = v.setSlot i { s.slot i with dirty := false } := by
    rw [recordWritten_eq (s := s.freeController) htab hrec, hv]; rfl
  have hdir : ∀ u, v.dir u = s.dir u := by subst hv; exact fun _ => rfl
  have hk : OnlyCache s v := by subst hv; exact ⟨rfl, rfl, rfl, rfl, rfl, rfl, rfl⟩
  have hslots : v.slots = s.slots := by subst hv; rfl
  have hqueue : v.memQueue = s.memQueue := by subst hv; rfl
  have hfree : v.memRunning = none := by subst hv; rfl
  clear hv
  have hslot : (v.setSlot i { s.slot i with dirty := false }).slot i = { s.slot i with dirty := false } := State.slot_setSlot_self _ _ _
  have huncache : (v.setSlot i { s.slot i with dirty := false }).uncache i =
      (v.setDir r.tab { v.dir r.tab with slot := none }).setSlot i { s.slot i with dirty := false } :=
    uncache_eq (by rw [hslot]; exact htab)
  have hentry : EntryBecomes s (v.setDir r.tab { v.dir r.tab with slot := none }) r.tab { s.dir r.tab with slot := none } := by
    rw [hdir r.tab]; exact entryBecomes_of (u := v) rfl fun u _ => hdir u
  unfold State.finishWrite
  rw [hwritten, show (s.freeController.slot i).incoming = (s.slot i).incoming from rfl]
  cases hincoming : (s.slot i).incoming with
  | none =>
    refine Sound.countFlush ?_ i none
    rw [becomeReady_from (s := v) (x := s.slot i) (dirty := false) (waits := (s.slot i).waits) hslot htab hrec rfl, State.setSlot_setSlot]
    refine Sound.executeHead (h.writtenReady (r := r) (dirty := false) (waits := (s.slot i).waits)
      (t := v.setSlot i (readySlot v (s.slot i) r.tab r false (s.slot i).waits)) hrunning htab
      ⟨hk.phase, hk.freeList, hk.closedList, hk.holds, hk.stations, hk.overflow, hk.counter⟩
      (fun w hw => slotSound_waitsFor (h.cache.slots i) htab hincoming hw) v (slotBecomes_of (u := v) rfl hslots) (fun u => ?_) hqueue hfree) i
    rw [if_neg (by rw [hincoming]; nofun)]
    exact hdir u
  | tab u =>
    dsimp only
    rw [huncache]
    unfold State.startFetch
    rw [State.setSlot_setSlot]
    exact h.fetchesNext hrunning htab hincoming ⟨hk.phase, hk.freeList, hk.closedList, hk.holds, hk.stations, hk.overflow, hk.counter⟩
      (slotBecomes_of (u := v) rfl hslots) hentry (congrArg (· ++ [MemOp.fetch i]) hqueue) hfree
  | new =>
    dsimp only
    rw [huncache]
    refine openForNew_sound ?_ (hk.phase ▸ (h.cached (h.cache.entry htab)).2.2.2) fun w hw => ?_
    · rw [State.setSlot_setSlot]
      exact h.becomesEmpty hrunning (by rw [hstate]; rfl) ⟨hk.phase, hk.freeList, hk.closedList, hk.holds, hk.stations, hk.overflow, hk.counter⟩
        (slotBecomes_of (u := v) rfl hslots) htab (by rw [hincoming]; nofun) hentry hqueue hfree
    · rw [State.slot_setSlot_self] at hw
      have hzero := (h.cache.slots i).waits w hw
      rw [hincoming] at hzero
      exact hzero

/-- An abandoned write-back leaves in tab memory what it leaves, and nothing else. -/
theorem leaveMemory_frame (s : State) (i : SlotId) (left : Option StoredRecord) :
    ∃ memory, s.leaveMemory i left = { s with tabMemory := memory } := by
  unfold State.leaveMemory
  split
  · exact ⟨_, rfl⟩
  · exact ⟨_, rfl⟩

theorem Sound.abandonWrite (h : Sound s) {i : SlotId} {deadline : Nat}
    (hrunning : s.memRunning = some { op := .writeBack i, deadline := deadline }) (left : Option StoredRecord) :
    Sound ((s.freeController.reach deadline).abandonWrite i left) := by
  obtain ⟨hstate, r, hrec, htab⟩ := h.writes hrunning
  obtain ⟨memory, hleft⟩ := leaveMemory_frame (s.freeController.reach deadline) i left
  unfold State.abandonWrite
  dsimp only
  rw [hleft, State.raise_frame]
  generalize (State.raise _ _).notices = notices
  generalize (State.raise _ _).dropped = dropped
  generalize hv : ({ (s.freeController.reach deadline) with tabMemory := memory, notices := notices, dropped := dropped } : State) = v
  have hslot : v.slot i = s.slot i := by subst hv; rfl
  have hdir : ∀ u, v.dir u = s.dir u := by subst hv; exact fun _ => rfl
  have hk : OnlyCache s v := by subst hv; exact ⟨rfl, rfl, rfl, rfl, rfl, rfl, rfl⟩
  have hslots : v.slots = s.slots := by subst hv; rfl
  have hqueue : v.memQueue = s.memQueue := by subst hv; rfl
  have hfree : v.memRunning = none := by subst hv; rfl
  clear hv
  rw [show ((s.freeController.reach deadline).slot i).incoming = (s.slot i).incoming from rfl]
  cases hincoming : (s.slot i).incoming with
  | none =>
    refine Sound.countFlush ?_ i _
    rw [becomeReady_eq (tab := r.tab) (r := r) (by rw [hslot]; exact htab) (by rw [hslot]; exact hrec), hslot]
    refine Sound.executeHead (h.writtenReady (r := r) (dirty := (s.slot i).dirty) (waits := (s.slot i).waits)
      (t := v.setSlot i (readySlot v (s.slot i) r.tab r (s.slot i).dirty (s.slot i).waits)) hrunning htab
      ⟨hk.phase, hk.freeList, hk.closedList, hk.holds, hk.stations, hk.overflow, hk.counter⟩
      (fun w hw => slotSound_waitsFor (h.cache.slots i) htab hincoming hw) v (slotBecomes_of (u := v) rfl hslots) (fun u => ?_) hqueue hfree) i
    rw [if_neg (by rw [hincoming]; nofun)]
    exact hdir u
  | tab u =>
    have hown : r.tab ≠ u := by rintro rfl; exact (h.cache.slots i).own _ hincoming htab
    obtain ⟨ports, hrun, -⟩ := keptSlot_answered (s := v.setCached u none) (i := i) (tab := r.tab) (r := r)
      (by exact (congrArg CacheSlot.tab hslot).trans htab) (by exact (congrArg CacheSlot.record hslot).trans hrec) .tabMemoryFault
    dsimp only
    rw [hrun, show (v.setCached u none).slot i = s.slot i from hslot]
    refine h.writtenReady (r := r) (dirty := (s.slot i).dirty) (waits := []) hrunning htab
      ⟨hk.phase, hk.freeList, hk.closedList, hk.holds, hk.stations, hk.overflow, hk.counter⟩ nofun (v.setCached u none)
      (slotBecomes_of (u := v) rfl hslots) (fun w => ?_) hqueue hfree
    change (v.setDir u { v.dir u with slot := none }).dir w = _
    by_cases hw : w = u
    · rw [hw, State.dir_setDir_self, if_pos hincoming, hdir]
    · rw [State.dir_setDir_other v hw, if_neg (by rw [hincoming]; exact fun e => hw (Incoming.tab.inj e).symm), hdir]
  | new =>
    obtain ⟨ports, hrun, -⟩ := keptSlot_answered (s := v) (i := i) (tab := r.tab) (r := r) (by rw [hslot]; exact htab) (by rw [hslot]; exact hrec)
      .tabMemoryFault
    dsimp only
    rw [hrun, hslot]
    refine h.writtenReady (r := r) (dirty := (s.slot i).dirty) (waits := []) hrunning htab
      ⟨hk.phase, hk.freeList, hk.closedList, hk.holds, hk.stations, hk.overflow, hk.counter⟩ nofun v
      (slotBecomes_of (u := v) rfl hslots) (fun w => ?_) hqueue hfree
    rw [if_neg (by rw [hincoming]; nofun)]
    exact hdir w

end Sys2Proof.TabAgreement
end

section
/-! PROOFS. The agreement of the tables under port resets, the end of the split check, start-up and part reset, and under the requests that change
no table (chapters 3, 7.5, 9.4, 10). -/

namespace Sys2Proof.TabAgreement

-- One theorem after another: as many checks at once take a thread each.
set_option Elab.async false

open Sys2Proof Sys2Proof.Machine Sys2Proof.Statements Sys2Proof.Invariants Sys2Proof.AtSlot

variable {s t : State}

/-! ### Port resets (R42, R141, R151) -/

theorem SameTables.setPort (s : State) (p : Port) (x : LanePort) : SameTables s (s.setPort p x) := {}

theorem SameTables.setRole (s : State) (p : Port) (r : PortRole) : SameTables s (s.setRole p r) := {}

theorem slot_dropRequest (s : State) (p : Port) (i : SlotId) : (s.dropRequest p).slot i = dropWaiter p (s.slot i) := by
  simp [State.dropRequest, State.slot]

theorem Sound.dropRequest (h : Sound s) (p : Port) : Sound (s.dropRequest p) := by
  have hslot := slot_dropRequest s p
  refine h.recached ⟨rfl, rfl, rfl, rfl, rfl, rfl, rfl⟩ (fun u => ⟨(s.dir u).slot, rfl⟩) (fun _ hu => hu)
    ⟨fun u i => ?_, h.cache.damaged, fun i => ?_,
    operationsAgree_same h.cache.operations (fun i => by rw [hslot]; rfl) rfl rfl⟩
  · rw [hslot]; exact h.cache.slot u i
  · rw [hslot]; exact slotSound_fewer (h.cache.slots i) fun _ hw => List.mem_of_mem_filter hw

theorem Sound.resetPort (h : Sound s) (p : Port) : Sound (s.resetPort p) := by
  have h1 := (h.dropRequest p).same (.setPort _ p LanePort.fresh)
  unfold State.resetPort
  dsimp only
  split
  · exact (h1.releaseHold p _).kitchenReset p
  · exact h1.kitchenReset p

theorem Sound.loadPort (h : Sound s) (e : Port × PortRole) : Sound (s.loadPort e) := by
  unfold State.loadPort
  split
  · exact h
  · split
    · exact (h.releaseHold _ _).same (.setRole _ _ _)
    · exact (h.resetPort _).same (.setRole _ _ _)

/-! ### The end of the split check (R129) -/

theorem Sound.releaseSplit (h : Sound s) (p : Port) : Sound (s.releaseSplit p) := by
  unfold State.releaseSplit
  split
  · exact h
  · exact h.executeHead _

theorem Sound.failSplit (h : Sound s) (p : Port) : Sound (s.failSplit p) := by
  unfold State.failSplit
  split
  · exact h
  · split
    · exact h
    · exact h.turnAway _ _ _

theorem Sound.endCheck (h : Sound s) (passed : Bool) : Sound (s.endCheck passed) := by
  unfold State.endCheck
  split
  · dsimp only
    refine Sound.foldl (fun u p hu => ?_) _ ((h.same (t := { s with check := _, engineWait := [] }) {}).same (.raise _ _))
    cases passed
    · exact hu.failSplit p
    · exact hu.releaseSplit p
  · exact h

/-! ### Frames, notices and availability (R62, R63, R149, R169) -/

theorem SameTables.frameLeaves (s : State) (p : Port) : SameTables s (s.frameLeaves p) := by
  unfold State.frameLeaves
  dsimp only
  split
  · exact .refl s
  · exact .setPort _ _ _

theorem SameTables.sendNotice (s : State) : SameTables s s.sendNotice := by
  unfold State.sendNotice
  split
  · exact .refl s
  · split
    · exact {}
    · exact .refl s

theorem SameTables.offerTo (body : List Byte) (s : State) (p : Port) : SameTables s (State.offerTo body s p) := by
  unfold State.offerTo
  split
  · exact .sendOwn _ _ _ _ _
  · exact .markStale _ _

theorem SameTables.offerAvailability (s : State) : SameTables s s.offerAvailability := by
  unfold State.offerAvailability
  split
  · exact .refl s
  · dsimp only
    generalize num1 _ ++ num1 _ ++ availabilityBytes _ = body
    have hoffers : SameTables s (s.tillPorts.foldl (State.offerTo body) s) := .foldl (.offerTo body) s.tillPorts s
    exact hoffers.trans ⟨rfl, rfl, rfl, rfl, rfl, rfl, rfl, rfl, rfl, rfl, rfl⟩

theorem SameTables.sendAvailabilityImage (s : State) (p : Port) : SameTables s (s.sendAvailabilityImage p) :=
  (SameTables.sendOwn s p _ _ _).trans (.setPort _ _ _)

/-! ### Saving (R173, R174) -/

theorem SameTables.endSave (s : State) (done : Bool) : SameTables s (s.endSave done) :=
  SameTables.trans (t := { s with save := none }) {} (.raise _ _)

theorem SameTables.eraseDone (s : State) : SameTables s s.eraseDone := by
  unfold State.eraseDone
  split
  · split
    · exact {}
    · exact .refl s
  · exact .refl s

theorem SameTables.nodeRead (s : State) (k : Nat) (readBack : Option (List Byte)) : SameTables s (s.nodeRead k readBack) := by
  unfold State.nodeRead
  split
  · exact .refl s
  · dsimp only
    split
    · exact SameTables.trans (t := { s with flash := _ }) {} (.endSave _ _)
    · split
      · exact {}
      · exact SameTables.trans (t := { s with flash := _ }) {} (.endSave _ _)

theorem SameTables.nodeVerified (s : State) (readBack : Option (List Byte)) : SameTables s (s.nodeVerified readBack) := by
  unfold State.nodeVerified
  split
  · split
    · exact .nodeRead _ _ _
    · exact .refl s
  · exact .refl s

theorem SameTables.reach (s : State) (moment : Nat) : SameTables s (s.reach moment) := {}

theorem SameTables.failSave (s : State) (left : List Byte) : SameTables s (s.failSave left) := by
  unfold State.failSave
  split
  · exact .refl s
  · exact SameTables.trans (t := { s with flash := _ }) {} (.endSave _ _)

theorem SameTables.timeOutSave (s : State) (left : List Byte) : SameTables s (s.timeOutSave left) := by
  unfold State.timeOutSave
  split
  · exact .refl s
  · exact (SameTables.reach _ _).trans (.failSave _ _)

/-! ### Loads, start-up and part reset (R2, R46, R161 to R166) -/

theorem SameTables.loadItems (s : State) (entries : List (Nat × Option Item)) : SameTables s (s.loadItems entries) :=
  SameTables.foldl (fun u (e : Nat × Option Item) => .setItem u e.1 e.2) entries s

theorem Sound.loadStations (h : Sound s) {entries : List (Port × StationEntry)} (hw : ∀ e ∈ entries, 1 ≤ e.2.window ∧ e.2.window ≤ 4) :
    Sound (entries.foldl State.loadStation s) := by
  induction entries generalizing s with
  | nil => exact h
  | cons e l ih =>
    exact ih (h.tickets (ticketsKept_loadStation s (hw e List.mem_cons_self))) fun x hx => hw x (List.mem_cons_of_mem e hx)

theorem Sound.loadNode (h : Sound s) {flash : List Byte} {start next : Nat} {load : NodeLoad}
    (hr : readNode flash start = some (load, next)) : Sound (s.loadNode load) := by
  obtain ⟨id, body, hbody⟩ := readNode_body hr
  cases load with
  | ports entries => exact h.same (SameTables.foldl (fun u (e : Port × PortRole) => .setRole u e.1 e.2) entries s)
  | groups rates => exact h.same ⟨rfl, rfl, rfl, rfl, rfl, rfl, rfl, rfl, rfl, rfl, rfl⟩
  | taxes rates => exact h.same ⟨rfl, rfl, rfl, rfl, rfl, rfl, rfl, rfl, rfl, rfl, rfl⟩
  | stations entries => exact h.loadStations ((readNodeBody_loads hbody).1 entries rfl)
  | timers times => exact h.same ⟨rfl, rfl, rfl, rfl, rfl, rfl, rfl, rfl, rfl, rfl, rfl⟩
  | items entries => exact h.same (.loadItems s entries)
  | last => exact h

/-- The format of the directory finds every entry formatted, for the part was STARTING (R2). -/
theorem Sound.finishStartUp (h : Sound s) (hphase : s.phase = .starting) : Sound s.finishStartUp := by
  have hdir : ∀ u, s.finishStartUp.dir u = s.dir u := fun u => (h.lists.formatted u (.inr (.inr hphase))).symm
  have hformatted : ∀ u, s.finishStartUp.dir u = DirEntry.formatted := fun _ => rfl
  refine ⟨kitchenFits_of_kitchen h.kitchen rfl rfl rfl,
    ⟨List.nodup_range', fun u => ?_, List.nodup_nil, fun u => ?_, fun u _ => hformatted u⟩,
    h.holds.same hdir fun _ => rfl, h.live.same hdir .rfl fun _ _ hx => hx, h.cache.sameDir hdir (fun _ => rfl) rfl rfl⟩
  · rw [hformatted, ← Frames.mem_allTabs]; exact (and_iff_left rfl).symm
  · rw [hformatted]; exact iff_of_false nofun nofun

theorem Sound.walkNode (h : Sound s) (hphase : s.phase = .starting) (read : FlashRead) : Sound (s.walkNode read) := by
  unfold State.walkNode
  split
  · exact h.finishStartUp hphase
  · rename_i load next _ hr
    have hmark : SameTables (s.loadNode load) ((s.loadNode load).markLoaded load) := by
      unfold State.markLoaded
      split
      · exact .refl _
      · exact {}
    exact ((h.loadNode hr).same hmark).same ⟨rfl, rfl, rfl, rfl, rfl, rfl, rfl, rfl, rfl, rfl, rfl⟩
  · exact h.finishStartUp hphase

theorem sound_partReset (s : State) (left : List Byte) : Sound (s.partReset left) :=
  ((sound_iff _).2 ⟨kitchenFits_reset, Frames.tablesAgree_reset⟩).same ⟨rfl, rfl, rfl, rfl, rfl, rfl, rfl, rfl, rfl, rfl, rfl⟩

/-! ### Requests that change no table -/

theorem SameTables.unlessSaving (p : Port) (h : SameTables s t) : SameTables s (s.unlessSaving p t) := by
  unfold State.unlessSaving
  split
  · exact .refuse _ _ _ _
  · exact h

theorem SameTables.takeLoadTaxes (p : Port) (body : List Byte) (s : State) : SameTables s (takeLoadTaxes p body s) := by
  refine .unlessSaving p ?_
  split
  · exact .refuse _ _ _ _
  · exact SameTables.trans (t := { s with taxRates := _ }) {} (.reply _ _ _ _)

theorem SameTables.takeLoadGroups (p : Port) (body : List Byte) (s : State) : SameTables s (takeLoadGroups p body s) := by
  refine .unlessSaving p ?_
  split
  · exact .refuse _ _ _ _
  · exact SameTables.trans (t := { s with serviceRates := _ }) {} (.reply _ _ _ _)

theorem SameTables.takeLoadItems (p : Port) (body : List Byte) (s : State) : SameTables s (takeLoadItems p body s) := by
  refine .unlessSaving p ?_
  split
  · exact .refuse _ _ _ _
  · exact ((SameTables.loadItems s _).trans (.latchItems _ s _)).trans (.reply _ _ _ _)

theorem SameTables.takeReadItems (p : Port) (body : List Byte) (s : State) : SameTables s (takeReadItems p body s) := by
  unfold Machine.takeReadItems
  split
  · exact .refuse _ _ _ _
  · exact .reply _ _ _ _

/-- A request on an item's stock: the item changes, its change is latched, and the reply is sent (R49, R50). -/
theorem SameTables.stockChange (s : State) (c : Nat) (x : Option Item) (p : Port) (fields : List Byte) :
    SameTables s (((s.setItem c x).latchItems s [c]).reply p .ok fields) :=
  ((SameTables.setItem s c x).trans (.latchItems _ s _)).trans (.reply _ _ _ _)

theorem SameTables.takeSetStock (p : Port) (body : List Byte) (s : State) : SameTables s (takeSetStock p body s) := by
  refine .unlessSaving p ?_
  split
  · exact .refuse _ _ _ _
  · split
    · exact .refuse _ _ _ _
    · exact .stockChange s _ _ _ _

theorem SameTables.takeAdjustStock (p : Port) (body : List Byte) (s : State) : SameTables s (takeAdjustStock p body s) := by
  refine .unlessSaving p ?_
  split
  · exact .refuse _ _ _ _
  · split
    · exact .refuse _ _ _ _
    · split
      · exact .refuse _ _ _ _
      · exact .stockChange s _ _ _ _

theorem SameTables.takeAvailQuery (p : Port) (body : List Byte) (s : State) : SameTables s (takeAvailQuery p body s) := by
  unfold Machine.takeAvailQuery
  split
  · exact .refuse _ _ _ _
  · exact (SameTables.markStale s p).trans (.reply _ _ _ _)

theorem SameTables.takeListTabs (p : Port) (body : List Byte) (s : State) : SameTables s (takeListTabs p body s) := by
  unfold Machine.takeListTabs
  split
  · exact .refuse _ _ _ _
  · split
    · exact .refuse _ _ _ _
    · exact .reply _ _ _ _

theorem SameTables.takeCheckSplit (p : Port) (body : List Byte) (s : State) : SameTables s (takeCheckSplit p body s) := by
  unfold Machine.takeCheckSplit
  split
  · exact .refuse _ _ _ _
  · split
    · exact .refuse _ _ _ _
    · exact SameTables.trans (t := { s with check := _ }) {} (.reply _ _ _ _)

theorem SameTables.takeSaveConfig (p : Port) (body : List Byte) (s : State) : SameTables s (takeSaveConfig p body s) := by
  unfold Machine.takeSaveConfig
  split
  · exact .refuse _ _ _ _
  · split
    · exact .refuse _ _ _ _
    · exact SameTables.trans (t := { s with save := _ }) {} (.reply _ _ _ _)

theorem SameTables.takeLoadTimers (p : Port) (body : List Byte) (s : State) : SameTables s (takeLoadTimers p body s) := by
  refine .unlessSaving p ?_
  split
  · exact .refuse _ _ _ _
  · exact SameTables.trans (t := { s with timers := _ }) {} (.reply _ _ _ _)

theorem SameTables.takeNoticeMask (p : Port) (body : List Byte) (s : State) : SameTables s (takeNoticeMask p body s) := by
  unfold Machine.takeNoticeMask
  split
  · exact .refuse _ _ _ _
  · exact SameTables.trans (t := { s with mask := _ }) {} (.reply _ _ _ _)

theorem SameTables.takeStatus (p : Port) (body : List Byte) (s : State) : SameTables s (takeStatus p body s) := by
  unfold Machine.takeStatus
  split
  · exact .refuse _ _ _ _
  · exact .reply _ _ _ _

theorem SameTables.takeDescribe (p : Port) (body : List Byte) (s : State) : SameTables s (takeDescribe p body s) := by
  unfold Machine.takeDescribe
  split
  · exact .refuse _ _ _ _
  · exact .reply _ _ _ _

end Sys2Proof.TabAgreement
end

section
/-! PROOFS. The agreement of the tables under every request and every command: the second half of O3. -/

namespace Sys2Proof.TabAgreement

-- One theorem after another: as many checks at once take a thread each.
set_option Elab.async false

open Sys2Proof Sys2Proof.Machine Sys2Proof.Statements Sys2Proof.Invariants Sys2Proof.AtSlot

variable {s t : State}

/-! ### Requests on tabs when taken (chapters 1, 3, 6, 7, 8) -/

theorem Sound.takeOrder (h : Sound s) (hphase : s.phase ≠ .starting) (p : Port) (body : List Byte) : Sound (takeOrder p body s) := by
  unfold Machine.takeOrder
  split
  · exact h.same (.refuse _ _ _ _)
  · split
    · exact h.cacheNewOrder hphase rfl
    · exact h.toCache p rfl

theorem Sound.takeVoid (h : Sound s) (p : Port) (body : List Byte) : Sound (takeVoid p body s) := by
  unfold Machine.takeVoid
  split
  · exact h.same (.refuse _ _ _ _)
  · exact h.toCache p rfl

theorem Sound.takeReadTab (h : Sound s) (p : Port) (body : List Byte) : Sound (takeReadTab p body s) := by
  unfold Machine.takeReadTab
  split
  · exact h.same (.refuse _ _ _ _)
  · split
    · exact h.same (.refuse _ _ _ _)
    · rename_i hjudge
      unfold State.judgeReadTaken at hjudge
      split at hjudge
      · cases hjudge
      · rename_i hfree
        split at hjudge
        · cases hjudge
        · split at hjudge
          · cases hjudge
          · rename_i hdamaged
            exact h.cacheRequest (fun e => hfree (by simp [e])) hdamaged rfl

theorem Sound.takeSplit (h : Sound s) (p : Port) (body : List Byte) : Sound (takeSplit p body s) := by
  unfold Machine.takeSplit
  split
  · exact h.same (.refuse _ _ _ _)
  · exact h.toCache p rfl

theorem Sound.takeCancelSplit (h : Sound s) (p : Port) (body : List Byte) : Sound (takeCancelSplit p body s) := by
  unfold Machine.takeCancelSplit
  split
  · exact h.same (.refuse _ _ _ _)
  · exact h.toCache p rfl

theorem Sound.takeTender (h : Sound s) (p : Port) (body : List Byte) : Sound (takeTender p body s) := by
  unfold Machine.takeTender
  split
  · exact h.same (.refuse _ _ _ _)
  · exact h.toCache p rfl

theorem Sound.takeResume (h : Sound s) (p : Port) (body : List Byte) : Sound (takeResume p body s) := by
  unfold Machine.takeResume
  split
  · exact h.same (.refuse _ _ _ _)
  · exact h.toCache p rfl

theorem Sound.takeDiscardTab (h : Sound s) (p : Port) (body : List Byte) : Sound (takeDiscardTab p body s) := by
  unfold Machine.takeDiscardTab
  split
  · exact h.same (.refuse _ _ _ _)
  · split
    · split
      · exact h.same (.refuse _ _ _ _)
      · exact h.same (.refuse _ _ _ _)
      · exact h.same (.refuse _ _ _ _)
      · rename_i hstate; exact h.discardDamaged p hstate
      · rename_i hstate; exact h.cacheRequest (by rw [hstate]; nofun) (by rw [hstate]; nofun) rfl
    · exact h.same (.refuse _ _ _ _)

theorem Sound.takeCollect (h : Sound s) (p : Port) (body : List Byte) : Sound (takeCollect p body s) := by
  unfold Machine.takeCollect
  split
  · exact h.same (.refuse _ _ _ _)
  · split
    · exact h.same (.refuse _ _ _ _)
    · rename_i tab hfirst
      have hstate := (h.lists.closed tab).1 (List.mem_of_find?_eq_some hfirst)
      exact h.cacheRequest (by rw [hstate]; nofun) (by rw [hstate]; nofun) rfl

/-! ### Requests on the kitchen when taken (chapters 4, 5) -/

theorem Sound.takeTaken (h : Sound s) (p : Port) (body : List Byte) : Sound (takeTaken p body s) := by
  unfold Machine.takeTaken
  split
  · exact h
  · split
    · exact h
    · split
      · exact h.tickets (.showTicket _ _ _)
      · split
        · exact h.tickets (.restartAck _ _)
        · exact h

theorem Sound.takeStart (h : Sound s) (p : Port) (body : List Byte) : Sound (takeStart p body s) := by
  unfold Machine.takeStart
  split
  · exact h.same (.refuse _ _ _ _)
  · rename_i n _
    split
    · exact h.same (.refuse _ _ _ _)
    · split
      · exact Sound.same (s := s.mapTicket p n fun u => { u with started := true })
          (h.tickets (.mapTicket s p n fun _ _ _ _ => ⟨rfl, rfl⟩)) (.reply _ _ _ _)
      · exact h.same (.refuse _ _ _ _)

theorem Sound.takeBump (h : Sound s) (p : Port) (body : List Byte) : Sound (takeBump p body s) := by
  unfold Machine.takeBump
  split
  · exact h.same (.refuse _ _ _ _)
  · split
    · exact h.same (.refuse _ _ _ _)
    · split
      · exact h.same (.refuse _ _ _ _)
      · rename_i x hx
        split
        · exact h.same (.refuse _ _ _ _)
        · exact (h.bumpTicket (List.mem_of_find?_eq_some hx)).same (.reply _ _ _ _)

theorem Sound.takeRecall (h : Sound s) (p : Port) (body : List Byte) : Sound (takeRecall p body s) := by
  unfold Machine.takeRecall
  split
  · exact h.same (.refuse _ _ _ _)
  · split
    · exact h.same (.refuse _ _ _ _)
    · rename_i e rest hrecalls
      split
      · exact Sound.same (s := s.setStation p { s.station p with recalls := rest })
          (h.dropRecalls rfl rfl rfl (by rw [hrecalls]; exact List.sublist_cons_self e rest)) (.refuse _ _ _ _)
      · rename_i hgone
        split
        · exact h.same (.refuse _ _ _ _)
        · rename_i hlen
          exact (h.recallEntry hrecalls (Bool.eq_false_iff.2 hgone) (not_le.1 hlen)).same (.reply _ _ _ _)

theorem Sound.takeHello (h : Sound s) (p : Port) (body : List Byte) : Sound (takeHello p body s) := by
  unfold Machine.takeHello
  split
  · exact h.same (.refuse _ _ _ _)
  · exact (h.helloStation p).same (.reply _ _ _ _)

theorem Sound.takeCancelTicket (h : Sound s) (p : Port) (body : List Byte) : Sound (takeCancelTicket p body s) := by
  unfold Machine.takeCancelTicket
  split
  · exact h.same (.refuse _ _ _ _)
  · split
    · exact h.same (.refuse _ _ _ _)
    · rename_i x hx
      exact (h.removeTicket (List.mem_of_find?_eq_some hx)).same (.reply _ _ _ _)

theorem Sound.takeLoadStations (h : Sound s) (p : Port) (body : List Byte) : Sound (takeLoadStations p body s) := by
  unfold Machine.takeLoadStations
  split
  · exact h.same (.refuse _ _ _ _)
  · split
    · exact h.same (.refuse _ _ _ _)
    · rename_i entries he
      exact (h.loadStations (readLoadStations_windows he)).same (.reply _ _ _ _)

/-! ### Requests on the cache and the ports when taken (chapters 2, 9, 10) -/

/-- READY slots start to write one after another: a slot that started leaves the later ones READY (R36). -/
theorem Sound.startWrites (h : Sound s) {l : List SlotId} (honce : l.Nodup) (hready : ∀ i ∈ l, (s.slot i).state = .ready) :
    Sound (l.foldl (fun acc i => acc.startWrite i .none (acc.slot i).waits) s) := by
  induction l generalizing s with
  | nil => exact h
  | cons i l ih =>
    obtain ⟨hnot, honce⟩ := List.nodup_cons.1 honce
    have hself := hready i List.mem_cons_self
    obtain ⟨tab, htab⟩ := h.slotTab hself
    have hnone := (h.cache.slots i).incoming (by rw [hself]; nofun)
    refine ih (h.startWriteIdle hself htab nofun (fun _ w hw => slotSound_waitsFor (h.cache.slots i) htab hnone hw) nofun) honce fun j hj => ?_
    have hother : (s.startWrite i .none (s.slot i).waits).slot j = s.slot j :=
      State.slot_setSlot_other s (j := j) (fun e => hnot (by rwa [e] at hj)) _
    rw [hother]
    exact hready j (List.mem_cons_of_mem i hj)

theorem Sound.takeFlushTabs (h : Sound s) (p : Port) (body : List Byte) : Sound (takeFlushTabs p body s) := by
  unfold Machine.takeFlushTabs
  split
  · exact h.same (.refuse _ _ _ _)
  · dsimp only
    split
    · exact h.same (.reply _ _ _ _)
    · exact (h.startWrites (MemoryRequests.flushSlots_nodup s) fun i hi => (MemoryRequests.mem_flushSlots.1 hi).1).same
        ⟨rfl, rfl, rfl, rfl, rfl, rfl, rfl, rfl, rfl, rfl, rfl⟩

theorem Sound.takeAuditTabs (h : Sound s) (p : Port) (body : List Byte) : Sound (takeAuditTabs p body s) := by
  unfold Machine.takeAuditTabs
  split
  · exact h.same (.refuse _ _ _ _)
  · split
    · exact h.same (.refuse _ _ _ _)
    · exact (h.same (.reply _ _ _ _)).walkAudit _ _

theorem Sound.takeResetPort (h : Sound s) (p : Port) (body : List Byte) : Sound (takeResetPort p body s) := by
  unfold Machine.takeResetPort
  split
  · exact h.same (.refuse _ _ _ _)
  · split
    · exact h.same (.refuse _ _ _ _)
    · exact (h.resetPort _).same (.reply _ _ _ _)

theorem Sound.takeLoadPorts (h : Sound s) (p : Port) (body : List Byte) : Sound (takeLoadPorts p body s) := by
  unfold Machine.takeLoadPorts
  split
  · exact h.same (.refuse _ _ _ _)
  · split
    · exact h.same (.refuse _ _ _ _)
    · exact (h.foldl (fun _ e hu => hu.loadPort e) _).same (.reply _ _ _ _)

/-! ### Frames (R143 to R146) -/

/-- The block that owns a kind keeps the tables in agreement; an ORDER, which may open a tab, is not taken while STARTING. -/
theorem Sound.ownerOf (h : Sound s) {k : Kind} (hphase : k = .order → s.phase ≠ .starting) (p : Port) (body : List Byte) :
    Sound (ownerOf k p body s) := by
  cases k with
  | order => exact h.takeOrder (hphase rfl) p body
  | void => exact h.takeVoid p body
  | readTab => exact h.takeReadTab p body
  | listTabs => exact h.same (.takeListTabs p body s)
  | split => exact h.takeSplit p body
  | cancelSplit => exact h.takeCancelSplit p body
  | tender => exact h.takeTender p body
  | resume => exact h.takeResume p body
  | availQuery => exact h.same (.takeAvailQuery p body s)
  | hello => exact h.takeHello p body
  | taken => exact h.takeTaken p body
  | start => exact h.takeStart p body
  | bump => exact h.takeBump p body
  | recallTicket => exact h.takeRecall p body
  | loadPorts => exact h.takeLoadPorts p body
  | loadGroups => exact h.same (.takeLoadGroups p body s)
  | loadTaxes => exact h.same (.takeLoadTaxes p body s)
  | loadItems => exact h.same (.takeLoadItems p body s)
  | loadStations => exact h.takeLoadStations p body
  | loadTimers => exact h.same (.takeLoadTimers p body s)
  | setStock => exact h.same (.takeSetStock p body s)
  | adjustStock => exact h.same (.takeAdjustStock p body s)
  | readItems => exact h.same (.takeReadItems p body s)
  | collect => exact h.takeCollect p body
  | discardTab => exact h.takeDiscardTab p body
  | cancelTicket => exact h.takeCancelTicket p body
  | flushTabs => exact h.takeFlushTabs p body
  | auditTabs => exact h.takeAuditTabs p body
  | checkSplit => exact h.same (.takeCheckSplit p body s)
  | resetPort => exact h.takeResetPort p body
  | saveConfig => exact h.same (.takeSaveConfig p body s)
  | noticeMask => exact h.same (.takeNoticeMask p body s)
  | status => exact h.same (.takeStatus p body s)
  | describe => exact h.same (.takeDescribe p body s)
  | ticket => exact h
  | withdraw => exact h
  | image => exact h
  | reply => exact h
  | availability => exact h
  | notice => exact h

theorem Sound.delimit (h : Sound s) (p : Port) : Sound (s.delimit p) := h.same (.setPort _ _ _)

theorem Sound.judgeSlot (h : Sound s) (p : Port) (k : Kind) (tag : Byte) (body : List Byte) :
    Sound (s.judgeSlot p k tag body (Machine.ownerOf k)) := by
  unfold State.judgeSlot
  split
  · exact h.same (.answer _ _ _ _ _)
  · rename_i hphase
    split
    · exact h.same (.answer _ _ _ _ _)
    · refine Sound.ownerOf (h.same (.setPort _ _ _)) (fun e hstart => hphase ⟨hstart, by rw [e]; nofun⟩) p body

theorem Sound.receive (h : Sound s) (k : Kind) (p : Port) (tag : Byte) (body : List Byte) :
    Sound (receive k (Machine.ownerOf k) p tag body s) := by
  unfold Machine.receive State.judgeKind
  have hgathers := h.delimit p
  split
  · exact h
  · split
    · exact hgathers
    · split
      · split
        · exact hgathers.takeTaken p body
        · exact hgathers.judgeSlot p k tag body
      · exact hgathers.same (.answer _ _ _ _ _)

theorem Sound.receiveByte (h : Sound s) (kind : Byte) (p : Port) (tag : Byte) (body : List Byte) : Sound (receiveByte kind p tag body s) := by
  unfold Machine.receiveByte
  split
  · exact h.receive _ p tag body
  · split
    · exact h
    · split
      · exact h.delimit p
      · exact (h.delimit p).same (.answer _ _ _ _ _)

theorem Sound.receiveFrame (h : Sound s) (p : Port) (run : List Byte) : Sound (receiveFrame p run s) := by
  unfold Machine.receiveFrame
  split
  · exact h.delimit p
  · split
    · split
      · exact h.receiveByte _ _ _ _
      · exact h.delimit p
    · exact (h.delimit p).same (.answer _ _ _ _ _)

theorem Sound.receiveRun (h : Sound s) (p : Port) (run : List Byte) : Sound (receiveRun p run s) := by
  unfold Machine.receiveRun
  split
  · exact h.delimit p
  · exact h.receiveFrame p _

/-! ### Every command -/

/-- The state to which a command leads; the commands by which a frame of one kind arrives are one case. -/
theorem exec_sound (h : Sound s) {c : Instr} (hexec : exec c s = .next t) : Sound t := by
  cases c <;> cases hexec
  case partReset left => exact sound_partReset s left
  case configWalkNode read =>
    split
    · rename_i hphase; exact h.walkNode hphase read
    · exact h
  case runDiscarded port run => exact h.receiveRun port run
  case linkError port run =>
    split
    · exact h.receiveFrame port run
    · exact h.delimit port
  case kindNotPermitted port kind tag body => exact h.receiveByte kind port tag body
  case ackTimerExpiry port =>
    split
    · exact h
    · exact h.ackExpiry port _
  case holdExpiry port =>
    split
    · exact h
    · exact (h.same (.reach _ _)).releaseHold port _
  case imagePeriodExpiry => exact h.imagePeriod
  case memoryOpStart => exact h.startOperation
  case fetchComplete read =>
    split
    · rename_i hrunning
      split
      · exact h.finishFetch hrunning read
      · exact h
    · exact h
  case fetchAbandoned =>
    split
    · rename_i hrunning; exact h.abandonFetch hrunning
    · exact h
  case writeBackComplete =>
    split
    · rename_i hrunning
      split
      · exact h.finishWrite hrunning
      · exact h
    · exact h
  case writeBackAbandoned left =>
    split
    · rename_i hrunning; exact h.abandonWrite hrunning left
    · exact h
  case auditReadComplete read =>
    split
    · rename_i hrunning
      split
      · exact (h.freeAuditRead hrunning).endAuditRead _ _
      · exact h
    · exact h
  case auditReadAbandoned =>
    split
    · rename_i hrunning; exact ((h.freeAuditRead hrunning).same (.reach _ _)).endAuditRead _ _
    · exact h
  case splitCheckEnd passed => exact h.endCheck passed
  case saveEraseComplete => exact h.same (.eraseDone s)
  case saveNodeVerified readBack => exact h.same (.nodeVerified s readBack)
  case saveFault left => exact h.same (.failSave s left)
  case saveTimeout left => exact h.same (.timeOutSave s left)
  case frameSent port => exact h.same (.frameLeaves s port)
  case waiterExecutes slot => exact h.executeHead slot
  case ticketSend port =>
    split
    · rename_i hsend
      split
      · exact h
      · exact h.sendTicket hsend _
    · exact h
  case urgentImage port =>
    split
    · exact h.sendImage port _
    · exact h
  case trickleImage port =>
    split
    · exact h.sendImage port _
    · exact h
  case availabilityOffer => exact h.same (.offerAvailability s)
  case availabilityImageFrame port =>
    split
    · exact h.same (.sendAvailabilityImage s port)
    · exact h
  case noticeSend => exact h.same (.sendNotice s)
  all_goals exact h.receive _ _ _ _

/-- Settles O3: the sparse tables are changed by the operations that keep their form, and each block's operations keep what the tables say of
one another; what a command needs to know of the state before it (a tab's state, a slot's, the running operation) the agreement gives. -/
theorem stepKeepsTablesInForm : Obligations.StepKeepsTablesInForm := by
  unfold Obligations.StepKeepsTablesInForm
  refine ⟨fun s t hs h => step_keeps_tables h hs, fun s t _ hkitchen hagree h => ?_⟩
  have hsound : Sound s := (sound_iff s).2 ⟨hkitchen, hagree⟩
  unfold step at h
  split at h
  · cases h
    exact ((sound_iff _).1 (hsound.same (t := { s with now := s.now + 1 }) {})).2
  · rename_i c rest _
    exact ((sound_iff t).1 (exec_sound (hsound.same (t := { s with pending := rest }) {}) h)).2

end Sys2Proof.TabAgreement
end
